-- ==== Sys2Proof/Word.lean ====
section
/-! DEFINITION. The word types of the EBUS-CSMA link controller (spec 00_scope.md R9: every value is an unsigned
integer of a stated width). -/

namespace Sys2Proof

/-- A wire byte or a logical byte (00_scope.md R13). -/
abbrev Byte := BitVec 8

/-- `HOST_AW` (00_scope.md R6): the width of a host address. It fixes the transaction word of 30_encoding.md R90, so it
is a parameter of the types. Log 22. -/
@[simp] abbrev Config.hostAw : Nat := 6

/-- `HOST_DW` (00_scope.md R6): the width of host data. It fixes the transaction word of 30_encoding.md R90, so it is a
parameter of the types. Log 22. -/
@[simp] abbrev Config.hostDw : Nat := 16

/-- A host register word, a CRC or a statistics counter (20_memory.md R75, 10_state.md R30). -/
abbrev Word := BitVec 16

/-- The data of a host access (00_scope.md R6; 20_memory.md R75). -/
abbrev HostData := BitVec Config.hostDw

/-- A host register address (20_memory.md R70: 64 word addresses). -/
abbrev Addr := BitVec Config.hostAw

/-- A host transaction word (30_encoding.md R90). -/
abbrev Txn := BitVec 24

end Sys2Proof
end

