-- ==== Sys2Proof/Config.lean ====
section
/-! DEFINITION. The implementation parameters of 00_scope.md R6, the derived constants of R7, the elaboration check
of R8, and the free values: the parameters the spec leaves OPEN and the environment's draws (R11). -/

namespace Sys2Proof

/-- The values of the input ports in one clock cycle (10_state.md R21). -/
structure Inputs where
  /-- `rst`: synchronous reset, active high. -/
  rst : Bool
  /-- `host_en`: a host access happens in this cycle. -/
  hostEn : Bool
  /-- `host_we`: 1 = write, 0 = read. -/
  hostWe : Bool
  /-- `host_addr`: register word address. -/
  hostAddr : Addr
  /-- `host_wdata`: write data. -/
  hostWdata : HostData
  /-- `rx_valid`: the UART delivers one received byte in this cycle. -/
  rxValid : Bool
  /-- `rx_byte`: that byte. -/
  rxByte : Byte
  /-- `rx_line`: the present level of the receive line. -/
  rxLine : Bool
  /-- `uart_ready`: the UART can accept a byte in this cycle. -/
  uartReady : Bool
  /-- `uart_tx_idle`: the UART holds no byte waiting or being shifted out. -/
  uartTxIdle : Bool
  /-- `rnd`: random number for the backoff draw. The draw reads its low `RND_W` bits; a port wider than 8 bits has no
  further bit that a 4-bit `bo` could make it read (43_arbiter_send.md R170, R176). -/
  rnd : Byte
  deriving DecidableEq, Repr, Inhabited

/-- A cycle in which nothing happens at the ports: no reset, no host access, no received byte, the line at rest, the
UART ready and empty. Only a base for writing out an input by hand; the machine never assumes it. -/
def Inputs.quiet : Inputs :=
  { rst := false, hostEn := false, hostWe := false, hostAddr := 0, hostWdata := 0, rxValid := false, rxByte := 0,
    rxLine := true, uartReady := true, uartTxIdle := true, rnd := 0 }

namespace Config

/-! The defaults of the named parameters (R6). The machine reads the values its state carries (`Params`), never these.
DESIGN CHOICE, log 22: the source's literals are unaudited. -/

/-- `P` (PAYLOAD_SIZE): logical bytes of a frame before the CRC, PROTOCOL_ID included (R6; 90_conflicts.md C1). The
block is built for this value and the register map assumes it, so it is a parameter of the types too. -/
abbrev payloadSize : Nat := 16

/-- `FRAME_SYNC`: the frame-start symbol (R6). -/
def frameSync : Byte := 0x7E

/-- `FRAME_ESC`: the escape prefix (R6). -/
def frameEsc : Byte := 0x7D

/-- `ESC_MASK`: XOR mask applied to an escaped byte (R6). -/
def escMask : Byte := 0x20

/-- `CRC_POLY`: x^16+x^12+x^5+1 in normal form (R6). -/
def crcPoly : Word := 0x1021

/-- `CRC_INIT`: the CRC preset (R6). -/
def crcInit : Word := 0xFFFF

/-- `CRC_REFLECTED`: the bit order of the CRC register. OPEN (92_eei_decisions.md, Open parameters). PRESUMED, log 12:
the spec's default (D10). -/
def crcReflected : Bool := true

/-- `CRC_XOROUT`: the final XOR. OPEN (92_eei_decisions.md, Open parameters). PRESUMED, log 12: the spec's default
(D10). -/
def crcXorOut : Word := 0x0000

/-- `BO_MAX`: the backoff counter's saturation value (R6). -/
def boMax : Nat := 8

/-- `ECHO_TIMEOUT`: octet-times allowed for self-echo confirmation (R6). -/
def echoTimeout : Nat := 4

/-- `BITS_PER_OCTET`: bit-times per octet, 8-N-1 (R6). -/
def bitsPerOctet : Nat := 10

/-- `LEN_CLASS_EXPECTED`: the length-class value this receiver accepts (R6). -/
def lenClassExpected : BitVec 2 := 0b00

/-- `STAT_W`: width of each statistics counter (R6). -/
def statW : Nat := 16

/-- `RND_W`: width of the random-number input (R6). -/
def rndW : Nat := 8

/-- `FRAME_LOGICAL` = P + 2: logical bytes of a frame (R7). -/
def frameLogical : Nat := payloadSize + 2

/-- `TX_LAST_POS` = P + 3: the value of `tx_pos` after the last wire byte (R7; 41_frame_codec.md R128). -/
def txLastPos : BitVec 5 := 19

/-- OPEN parameter `OCTET_TICKS`, less one (R6, R8: any integer at least 1). A free value, log 2. -/
opaque octetTicksLessOne : Nat

/-- OPEN parameter `OCTET_TICKS`: clock cycles in one octet-time (R6; 42_timing_monitor.md R140). At least 1, since a
configuration below 1 yields no machine (R8). Log 2. -/
def octetTicks : Nat := octetTicksLessOne + 1

/-- OPEN parameter `BAUD`, above the lowest supported rate. A free value, log 3. -/
opaque baudAbove9600 : Fin 105601

/-- OPEN parameter `BAUD`: 9600 to 115200 (R6). Used only to pick `OCTET_TICKS`; no rule of the machine reads it. Log 3. -/
def baud : Nat := 9600 + baudAbove9600.val

/-- The input-port values of a cycle that nothing has fixed: a draw of the environment under no law (R11; D13). A free
value for every draw, log 1. -/
opaque inputDraw : Nat → Inputs

end Config

/-- The implementation parameters as a configuration (R6; 92_eei_decisions.md, Open parameters; 93 X1, X4, X11, X12).
Each has its default but the two with no source value. HOST_AW and HOST_DW fix the types (`Config.hostAw`,
`Config.hostDw`). -/
structure Params where
  /-- `OCTET_TICKS`. -/
  octetTicks : Nat
  /-- `BAUD`. -/
  baud : Nat
  /-- `P`. -/
  payloadSize : Nat := Config.payloadSize
  /-- `FRAME_SYNC`. -/
  frameSync : Byte := Config.frameSync
  /-- `FRAME_ESC`. -/
  frameEsc : Byte := Config.frameEsc
  /-- `ESC_MASK`. -/
  escMask : Byte := Config.escMask
  /-- `CRC_POLY`, normal form. -/
  crcPoly : Word := Config.crcPoly
  /-- `CRC_INIT`. -/
  crcInit : Word := Config.crcInit
  /-- `CRC_REFLECTED`. -/
  crcReflected : Bool := Config.crcReflected
  /-- `CRC_XOROUT`. -/
  crcXorOut : Word := Config.crcXorOut
  /-- `BO_MAX`. -/
  boMax : Nat := Config.boMax
  /-- `ECHO_TIMEOUT`. -/
  echoTimeout : Nat := Config.echoTimeout
  /-- `BITS_PER_OCTET`. -/
  bitsPerOctet : Nat := Config.bitsPerOctet
  /-- `LEN_CLASS_EXPECTED`. -/
  lenClassExpected : BitVec 2 := Config.lenClassExpected
  /-- `STAT_W`. -/
  statW : Nat := Config.statW
  /-- `RND_W`. -/
  rndW : Nat := Config.rndW
  deriving DecidableEq, Repr

/-- Every parameter but the four OPEN ones (OCTET_TICKS, BAUD, CRC_REFLECTED, CRC_XOROUT) has the source's value: what
a statement about this hardware takes (R6). -/
structure Params.SourceLiterals (p : Params) : Prop where
  payloadSize : p.payloadSize = 16
  frameSync : p.frameSync = 0x7E
  frameEsc : p.frameEsc = 0x7D
  escMask : p.escMask = 0x20
  crcPoly : p.crcPoly = 0x1021
  crcInit : p.crcInit = 0xFFFF
  boMax : p.boMax = 8
  echoTimeout : p.echoTimeout = 4
  bitsPerOctet : p.bitsPerOctet = 10
  lenClassExpected : p.lenClassExpected = 0b00
  statW : p.statW = 16
  rndW : p.rndW = 8

/-- An elaboration is accepted only if OCTET_TICKS is at least 1, BAUD lies in 9600..115200 and P is 16 (R8;
60_exceptions.md R271, EV7). -/
def Params.accepted (p : Params) : Bool :=
  decide (1 ≤ p.octetTicks) && decide (9600 ≤ p.baud) && decide (p.baud ≤ 115200) && decide (p.payloadSize = 16)

/-- The `OCTET_TICKS` an integration should pick for a clock of `fclk` Hz:
ceil(fclk * BITS_PER_OCTET / BAUD) (42_timing_monitor.md R140; D19). -/
def Params.octetTicksFor (p : Params) (fclk : Nat) : Nat := (fclk * p.bitsPerOctet + p.baud - 1) / p.baud

/-- The parameters of this hardware: the defaults, with the two that have none free (logs 2, 3). -/
def Config.params : Params := { octetTicks := Config.octetTicks, baud := Config.baud }

end Sys2Proof
end

