-- ==== Sys2Proof/Machine/State.lean ====
section
/-! DEFINITION. The machine's state (spec 10_state.md R23 to R43), its fault and refusal reasons, and the state after
reset (70_reset_and_hazards.md R301). -/

namespace Sys2Proof.Machine

/-- Control states of the transmit sequencer (10_state.md R31; codes in 30_encoding.md R108). The reserved codes 14
and 15 cannot be represented: they are unreachable and have no step (R107; log 9). -/
inductive TxState where
  | idle
  | senseStart
  | senseWait
  | txBegin
  | txSend
  | txDrain
  | echoStart
  | echoWait
  | boIdleStart
  | boIdleWait
  | boRandStart
  | boRandWait
  | boCheckStart
  | boCheckWait
  deriving DecidableEq, Repr

/-- Modes of the receive path (10_state.md R39; codes in 30_encoding.md R109). -/
inductive RxMode where
  | listen
  | self
  | store
  | drop
  deriving DecidableEq, Repr

/-- A frame buffer: `P` byte registers (10_state.md R23, R26). -/
abbrev Buf := Vector Byte Config.payloadSize

/-- Why a step has no next state. The block raises no trap (60_exceptions.md R270): both reasons are stuck states that
no state reachable from reset has (10_state.md R45). -/
inductive Fault where
  /-- A data byte arrived in SELF, STORE or DROP with `rx_idx` above P + 1. Raised by RX_ESCAPED and RX_LITERAL. No
  rule says what happens (44_arbiter_receive.md R204; invariant I9 rules it out). Safe: the model stops. Log 7. -/
  | receiverPastFrame
  /-- `next_wire` was called with `tx_pos` above P + 2. Raised by TXS_TX_SEND. `L(tx_pos - 1)` does not exist
  (41_frame_codec.md R127: never called at TX_LAST_POS). Safe: the model stops. Log 8. -/
  | encoderPastFrame
  deriving DecidableEq, Repr

/-- Why an instruction has no meaning in this model. -/
inductive Refusal where
  /-- Raised by an arm of `exec` whose row has no meaning yet. Safe: the model stops. No arm raises it now. -/
  | notModelled (mnemonic : String)
  deriving DecidableEq, Repr

/-- Everything the spec gives the machine, and the model's own last three fields. -/
@[ext]
structure State where
  /-- `TXBUF[0..15]`, the outbound buffer (R23). -/
  txbuf : Buf
  /-- `TXCRC`, the cached CRC of the outbound frame (R24). -/
  txcrc : Word
  /-- `TXLEN` (R25). -/
  txlen : BitVec 5
  /-- `RXBUF[0..15]`, the inbound buffer (R26). -/
  rxbuf : Buf
  /-- `FRAME_READY` (R27). -/
  frameReady : Bool
  /-- `TX_DONE` (R28). -/
  txDone : Bool
  /-- `RXIE` (R29). -/
  rxie : Bool
  /-- `TXIE` (R29). -/
  txie : Bool
  /-- `STAT_SENT` (R30). -/
  statSent : Word
  /-- `STAT_RECV` (R30). -/
  statRecv : Word
  /-- `STAT_COLL` (R30). -/
  statColl : Word
  /-- `STAT_OVF` (R30). -/
  statOvf : Word
  /-- `tx_state` (R31). -/
  txState : TxState
  /-- `tx_pos`, 0..19 (R32). -/
  txPos : BitVec 5
  /-- `tx_half` (R32). -/
  txHalf : Bool
  /-- `bo`, 0..BO_MAX (R33). -/
  bo : BitVec 4
  /-- `bo_wait`, 0..16 (R34). -/
  boWait : BitVec 5
  /-- `echo_tmo`, 0..4 (R34). -/
  echoTmo : BitVec 3
  /-- `check_sending` (R35). -/
  checkSending : Bool
  /-- `collision` (R36). -/
  collision : Bool
  /-- `echo_ok` (R37). -/
  echoOk : Bool
  /-- `de`, the line-driver enable; also the output `out.de` (R38, R22). -/
  de : Bool
  /-- `rx_mode` (R39). -/
  rxMode : RxMode
  /-- `rx_idx`, 0..17 (R40). -/
  rxIdx : BitVec 5
  /-- `rx_esc` (R41). -/
  rxEsc : Bool
  /-- `rx_crc` (R42). -/
  rxCrc : Word
  /-- `rx_crchi` (R42). -/
  rxCrchi : Byte
  /-- `tmr_cnt`, 0..OCTET_TICKS; its width depends on OCTET_TICKS (R43; log 15). -/
  tmrCnt : Nat
  /-- `oct_flag` (R43). -/
  octFlag : Bool
  /-- `edge_armed` (R43). -/
  edgeArmed : Bool
  /-- `edge_seen` (R43). -/
  edgeSeen : Bool
  /-- `line_prev` (R43). -/
  linePrev : Bool
  /-- The output `out.host_rdata` of the cycle just run (R22; log 11). -/
  hostRdata : HostData
  /-- The output `out.tx_strobe` of the cycle just run (R22; log 11). -/
  txStrobe : Bool
  /-- The output `out.tx_byte` of the cycle just run (R22; log 11). -/
  txByte : Byte
  /-- The request `timer_reset` of the TX phase to the TMR phase (42_timing_monitor.md R141; log 11). -/
  reqTimerReset : Bool
  /-- The request `edge_arm` (42_timing_monitor.md R141; log 11). -/
  reqEdgeArm : Bool
  /-- The request `edge_disarm` (42_timing_monitor.md R141; log 11). -/
  reqEdgeDisarm : Bool
  /-- The model's own: the parameters this machine was elaborated with (00_scope.md R6). No step writes them. Logs 2, 22. -/
  params : Params
  /-- The model's own: the known input-port values of the coming cycles, the next cycle's first (00_scope.md R11).
  Log 1. -/
  feed : List Inputs
  /-- The model's own: how many cycles took their input-port values as a free draw. Log 1. -/
  draws : Nat
  deriving DecidableEq, Repr

/-- The state after reset under a configuration (70_reset_and_hazards.md R300, R301): `rx_crc` resets to CRC_INIT, the
other reset values depend on no parameter. No input is known and no draw has been taken (log 1). -/
def State.resetWith (p : Params) : State :=
  { txbuf := Vector.replicate Config.payloadSize 0
    txcrc := 0
    txlen := 16
    rxbuf := Vector.replicate Config.payloadSize 0
    frameReady := false
    txDone := false
    rxie := false
    txie := false
    statSent := 0
    statRecv := 0
    statColl := 0
    statOvf := 0
    txState := .idle
    txPos := 0
    txHalf := false
    bo := 0
    boWait := 0
    echoTmo := 0
    checkSending := false
    collision := false
    echoOk := false
    de := false
    rxMode := .listen
    rxIdx := 0
    rxEsc := false
    rxCrc := p.crcInit
    rxCrchi := 0
    tmrCnt := 0
    octFlag := false
    edgeArmed := false
    edgeSeen := false
    linePrev := true
    hostRdata := 0
    txStrobe := false
    txByte := 0
    reqTimerReset := false
    reqEdgeArm := false
    reqEdgeDisarm := false
    params := p
    feed := []
    draws := 0 }

/-- The state after reset of this hardware: the parameters are the defaults, the two that have none are free (logs 2,
3). -/
def State.reset : State := State.resetWith Config.params

end Sys2Proof.Machine
end

