-- ==== Sys2Proof/Machine/Codec.lean ====
section
/-! DEFINITION. The Frame Codec (spec 41_frame_codec.md): pure functions of the
parameters and their arguments, with no state of their own. -/

namespace Sys2Proof.Machine

/-- A counter counts modulo 2^STAT_W: `inc16` for the default STAT_W = 16 (00_scope.md R6, R10; 10_state.md R30). Of a
counter wider than 16 bits the field holds the low 16, all that its one reader, a host read, can carry. -/
def incStat (p : Params) (x : Word) : Word := BitVec.ofNat 16 ((x.toNat + 1) % 2 ^ p.statW)

/-! ## CRC-16 -/

/-- One bit of the reflected CRC register: it shifts the polynomial with its 16 bits reversed (R122). -/
def crcBitReflected (poly c : Word) : Word :=
  if c.getLsbD 0 then (c >>> 1) ^^^ poly.reverse else c >>> 1

/-- One bit of the MSB-first CRC register (R123). -/
def crcBitMsbFirst (poly c : Word) : Word :=
  if c.getLsbD 15 then (c <<< 1) ^^^ poly else c <<< 1

/-- `f` applied `n` times. -/
def repeatStep (f : Word → Word) : Nat → Word → Word
  | 0, c => c
  | n + 1, c => repeatStep f n (f c)

/-- `crc_update_R`, for CRC_POLY in normal form (R122). -/
def crcUpdateReflected (poly c : Word) (d : Byte) : Word := repeatStep (crcBitReflected poly) 8 (c ^^^ d.setWidth 16)

/-- `crc_update_M`, for CRC_POLY in normal form (R123). -/
def crcUpdateMsbFirst (poly c : Word) (d : Byte) : Word :=
  repeatStep (crcBitMsbFirst poly) 8 (c ^^^ (d.setWidth 16 <<< 8))

/-- `crc_update` (R120): the variant CRC_REFLECTED selects. -/
def crcUpdate (p : Params) (c : Word) (d : Byte) : Word :=
  if p.crcReflected then crcUpdateReflected p.crcPoly c d else crcUpdateMsbFirst p.crcPoly c d

/-- The CRC register after a list of bytes, from a given value (R121). -/
def crcFold (p : Params) (c : Word) (ds : List Byte) : Word := ds.foldl (crcUpdate p) c

/-- `compute_crc` over a list of bytes (R121). -/
def crcOf (p : Params) (ds : List Byte) : Word := crcFold p p.crcInit ds ^^^ p.crcXorOut

/-- `compute_crc` of a payload (R121). -/
def computeCrc (p : Params) (buf : Buf) : Word := crcOf p buf.toList

/-- A CRC on the wire, high byte first (20_memory.md R78): its high byte. -/
def crcHi (c : Word) : Byte := c.extractLsb' 8 8

/-- The low byte of a CRC (20_memory.md R78). -/
def crcLo (c : Word) : Byte := c.extractLsb' 0 8

/-! ## Byte stuffing -/

/-- A byte value reserved on the wire (30_encoding.md R102). -/
def isReserved (p : Params) (v : Byte) : Bool := decide (v = p.frameSync) || decide (v = p.frameEsc)

/-- `encode_byte` (R126). -/
def encodeByte (p : Params) (v : Byte) : List Byte :=
  if isReserved p v then [p.frameEsc, v ^^^ p.escMask] else [v]

/-- The logical bytes of a frame: the payload, then the CRC high byte first (30_encoding.md R98). -/
def logicalFrame (buf : Buf) (crc : Word) : List Byte := buf.toList ++ [crcHi crc, crcLo crc]

/-- The wire bytes of a frame: FRAME_SYNC, then every logical byte stuffed (R127, R130). -/
def wireFrame (p : Params) (buf : Buf) (crc : Word) : List Byte :=
  p.frameSync :: (logicalFrame buf crc).flatMap (encodeByte p)

/-- `encode_frame` of a payload (R130). -/
def encodeFrame (p : Params) (buf : Buf) : List Byte := wireFrame p buf (computeCrc p buf)

/-- What one received wire byte is (R129). -/
inductive Symbol where
  /-- FRAME_SYNC. -/
  | sync
  /-- An escape prefix: no output byte yet. -/
  | none
  /-- A destuffed data byte. -/
  | data (d : Byte)
  deriving DecidableEq, Repr

/-- `decode_symbol`: the symbol and the new escape flag (R129). -/
def decodeSymbol (p : Params) (b : Byte) (esc : Bool) : Symbol × Bool :=
  if b = p.frameSync then (.sync, false)
  else if esc then (.data (b ^^^ p.escMask), false)
  else if b = p.frameEsc then (.none, true)
  else (.data b, false)

/-- `L(k)` of R127, which is `E(k)` of 44_arbiter_receive.md: logical byte `k` of the outbound frame; none past the
frame's P + 2 bytes. -/
def logicalByte (txbuf : Buf) (txcrc : Word) (k : Nat) : Option Byte :=
  if h : k < Config.payloadSize then some txbuf[k]
  else if k = Config.payloadSize then some (crcHi txcrc)
  else if k = Config.payloadSize + 1 then some (crcLo txcrc)
  else none

end Sys2Proof.Machine
end

