-- ==== Sys2Proof/Machine/Operands.lean ====
section
/-! DEFINITION. The operands of the rules: the input ports of the cycle, the host transaction word, a byte of a
buffer, a logical byte of the outbound frame. -/

namespace Sys2Proof.Machine

/-- The 24-bit transaction word of a cycle's host ports: EN, WE, ADDR, WDATA from bit 23 down (30_encoding.md R90). -/
def hostTransaction (i : Inputs) : Txn :=
  BitVec.ofBool i.hostEn ++ BitVec.ofBool i.hostWe ++ i.hostAddr ++ i.hostWdata

/-- The input-port values of the cycle about to run: the first known ones, else a draw of the environment
(00_scope.md R11; 10_state.md R21). DESIGN CHOICE, log 1. -/
def State.inp (s : State) : Inputs := s.feed.headD (Config.inputDraw s.draws)

/-- The 9-bit value that classifies a received byte: `rx_esc` above the byte (30_encoding.md R103). -/
def rxSymbol (esc : Bool) (b : Byte) : BitVec 9 := BitVec.ofBool esc ++ b

/-- Byte `idx` of a buffer; the index is used directly (30_encoding.md R91). -/
def bufByte (buf : Buf) (idx : BitVec 4) : Byte := buf[idx.toFin]

/-- A buffer with byte `idx` replaced. -/
def bufSet (buf : Buf) (idx : BitVec 4) (d : Byte) : Buf := buf.set idx.toFin d

/-- `L(k)` of 41_frame_codec.md R127 and `E(k)` of 44_arbiter_receive.md, on the machine's outbound frame. -/
def State.frameByte (s : State) (k : Nat) : Option Byte := logicalByte s.txbuf s.txcrc k

/-- A PROTOCOL_ID byte from its fields (30_encoding.md R101). -/
def pidByte (cls : BitVec 2) (ptype : BitVec 6) : Byte := cls ++ ptype

end Sys2Proof.Machine
end

