-- ==== Sys2Proof/Machine/Flags.lean ====
section
/-! DEFINITION. The flag words the host reads and the interrupt request: the codes of the control states
(30_encoding.md R108, R109), STATUS (R95), CTRL (R94), the register map (R93), and `irq` (60_exceptions.md R273). -/

namespace Sys2Proof.Machine

/-- `tx_state` codes (30_encoding.md R108). -/
def TxState.code : TxState → BitVec 4
  | .idle => 0
  | .senseStart => 1
  | .senseWait => 2
  | .txBegin => 3
  | .txSend => 4
  | .txDrain => 5
  | .echoStart => 6
  | .echoWait => 7
  | .boIdleStart => 8
  | .boIdleWait => 9
  | .boRandStart => 10
  | .boRandWait => 11
  | .boCheckStart => 12
  | .boCheckWait => 13

/-- The control state of a `tx_state` code; none for the reserved codes 14 and 15 (30_encoding.md R107, R108). -/
def TxState.ofCode (c : BitVec 4) : Option TxState :=
  match c with
  | 0x0#4 => some .idle
  | 0x1#4 => some .senseStart
  | 0x2#4 => some .senseWait
  | 0x3#4 => some .txBegin
  | 0x4#4 => some .txSend
  | 0x5#4 => some .txDrain
  | 0x6#4 => some .echoStart
  | 0x7#4 => some .echoWait
  | 0x8#4 => some .boIdleStart
  | 0x9#4 => some .boIdleWait
  | 0xA#4 => some .boRandStart
  | 0xB#4 => some .boRandWait
  | 0xC#4 => some .boCheckStart
  | 0xD#4 => some .boCheckWait
  | _ => none

/-- `rx_mode` codes (30_encoding.md R109). -/
def RxMode.code : RxMode → BitVec 2
  | .listen => 0
  | .self => 1
  | .store => 2
  | .drop => 3

/-- TX_BUSY: `tx_state` is not IDLE (30_encoding.md R95). -/
def State.txBusy (s : State) : Bool := decide (s.txState ≠ .idle)

/-- The STATUS word, bit 15 down to bit 0 (30_encoding.md R95). -/
def State.statusWord (s : State) : Word :=
  0#1 ++ BitVec.ofBool s.de ++ s.rxMode.code ++ s.txState.code ++ s.bo ++ BitVec.ofBool s.checkSending ++
    BitVec.ofBool s.txDone ++ BitVec.ofBool s.frameReady ++ BitVec.ofBool s.txBusy

/-- The CTRL word as read: the command bits read 0 (30_encoding.md R94; 45_host_interface.md R235). -/
def State.ctrlWord (s : State) : Word := 0#14 ++ BitVec.ofBool s.txie ++ BitVec.ofBool s.rxie

/-- `irq`, a level of the state at the end of a cycle (60_exceptions.md R273). -/
def State.irq (s : State) : Bool := (s.frameReady && s.rxie) || (s.txDone && s.txie)

/-- The output `out.de`: the register `de` at the end of the cycle (10_state.md R22). -/
def State.outDe (s : State) : Bool := s.de

/-- The output `out.irq`: `irq` at the end of the cycle (10_state.md R22). -/
def State.outIrq (s : State) : Bool := s.irq

/-- `HostRead`: the register word at an address (30_encoding.md R93, R96; 00_scope.md R10). The rows' meanings do not
use it; it says in one place what the 64 addresses hold. -/
def State.registerWord (s : State) (a : Addr) : Word :=
  if a < 0x10 then (bufByte s.txbuf (a.extractLsb' 0 4)).setWidth 16
  else if a < 0x20 then (bufByte s.rxbuf (a.extractLsb' 0 4)).setWidth 16
  else if a = 0x20 then s.ctrlWord
  else if a = 0x21 then s.txlen.setWidth 16
  else if a = 0x22 then s.statusWord
  else if a = 0x23 then s.txcrc
  else if a = 0x24 then s.statSent
  else if a = 0x25 then s.statRecv
  else if a = 0x26 then s.statColl
  else if a = 0x27 then s.statOvf
  else 0

end Sys2Proof.Machine
end

