-- ==== Sys2Proof/Machine/Ops.lean ====
section
/-! DEFINITION. The named operations over the machine's state: sequencing, wires, counters, and the shared actions of
the rules. Taking an exception and returning from one do not exist on this block (spec 60_exceptions.md R270, R277),
so no operation stands for them. -/

namespace Sys2Proof.Machine

/-- The three outcomes over this machine's state. -/
abbrev Result := Host.Outcome State Fault Refusal

/-- The next phase reads what the earlier one left; a stop stays a stop (20_memory.md R72). -/
def andThen (r : Result) (f : State → Result) : Result :=
  match r with
  | .next s => f s
  | .fault e => .fault e
  | .refused e => .refused e

/-! ## Wires -/

/-- Drive `out.host_rdata`: the read data, or 0 in a cycle without a read (45_host_interface.md R230). -/
def State.answer (s : State) (r : HostData) : State := { s with hostRdata := r }

/-- `strobe(w)`: hand a wire byte to the UART (43_arbiter_send.md, head of the file). -/
def State.strobe (s : State) (w : Byte) : State := { s with txStrobe := true, txByte := w }

/-- What the TX phase does first: no request, no strobe, `out.tx_byte` 0 (43_arbiter_send.md R178). -/
def State.clearTxWires (s : State) : State :=
  { s with reqTimerReset := false, reqEdgeArm := false, reqEdgeDisarm := false, txStrobe := false, txByte := 0 }

/-- The requests leave no state behind them (42_timing_monitor.md R141). -/
def State.dropRequests (s : State) : State :=
  { s with reqTimerReset := false, reqEdgeArm := false, reqEdgeDisarm := false }

/-- `timer_reset <- 1`. -/
def State.requestTimerReset (s : State) : State := { s with reqTimerReset := true }

/-- `edge_arm <- 1`. -/
def State.requestEdgeArm (s : State) : State := { s with reqEdgeArm := true }

/-- `edge_disarm <- 1`. -/
def State.requestEdgeDisarm (s : State) : State := { s with reqEdgeDisarm := true }

/-- `tx_state <- X` (00_scope.md R10). -/
def State.goTo (s : State) (t : TxState) : State := { s with txState := t }

/-- The cycle ends: the next input-port values come up. DESIGN CHOICE, log 1. -/
def State.advance (s : State) : State :=
  { s with feed := s.feed.tail, draws := if s.feed.isEmpty then s.draws + 1 else s.draws }

/-! ## SEND acceptance -/

/-- Zero padding: bytes at index `n` and above are 0 (45_host_interface.md R239; 10_state.md R25). -/
def padBuf (n : Nat) (buf : Buf) : Buf := Vector.ofFn fun k => if k.val < n then buf[k] else 0

/-- The outbound frame as SEND accepts it: TXLEN values above P act as P (10_state.md R25). -/
def State.paddedTxbuf (s : State) : Buf := padBuf (min s.txlen.toNat Config.payloadSize) s.txbuf

/-- SEND in IDLE: pad, cache the CRC after padding, start the sequencer (45_host_interface.md R239). -/
def State.acceptSend (s : State) : State :=
  { s with
    txbuf := s.paddedTxbuf, txcrc := computeCrc s.params s.paddedTxbuf, bo := 0, txDone := false, txState := .senseStart }

/-! ## The stuffing encoder, one wire byte at a time -/

/-- `next_wire` at `tx_pos` = 0: FRAME_SYNC goes out (41_frame_codec.md R127). -/
def State.sendSync (s : State) : State := { s with txPos := 1 }.strobe s.params.frameSync

/-- `next_wire` for a byte that goes out as it is (R127). -/
def State.sendPlain (s : State) (v : Byte) : State := { s with txPos := s.txPos + 1 }.strobe v

/-- `next_wire` for the escape prefix: the masked byte is next (R127). -/
def State.sendPrefix (s : State) : State := { s with txHalf := true }.strobe s.params.frameEsc

/-- `next_wire` for the masked byte after an escape prefix (R127). -/
def State.sendMasked (s : State) (v : Byte) : State :=
  { s with txPos := s.txPos + 1, txHalf := false }.strobe (v ^^^ s.params.escMask)

/-! ## Ends of an attempt -/

/-- `EndAttempt()` (43_arbiter_send.md R177). -/
def State.endAttempt (s : State) : State :=
  { s with checkSending := false, rxMode := if s.rxMode = .self then .listen else s.rxMode }

/-- `min(bo + 1, BO_MAX)` (43_arbiter_send.md R174). -/
def boIncrement (p : Params) (bo : BitVec 4) : BitVec 4 := BitVec.ofNat 4 (min (bo.toNat + 1) p.boMax)

/-- `Collide(timeout)` (43_arbiter_send.md R174): only the echo timeout is counted here. -/
def State.collide (s : State) (timeout : Bool) : State :=
  { s.endAttempt with
    de := false
    bo := boIncrement s.params s.bo
    statColl := if timeout then incStat s.params s.statColl else s.statColl
    txState := .boIdleStart }

/-- `Succeed()` (43_arbiter_send.md R175). -/
def State.succeed (s : State) : State :=
  { s.endAttempt with
    statSent := incStat s.params s.statSent
    txDone := true
    txState := .idle }

/-- `BO_WINDOW(b)` = 1 << (b div 2) (43_arbiter_send.md R176). For `b` above BO_MAX, which no reachable state has, the
same formula is used: DEDUCED, log 10. -/
def boWindow (b : BitVec 4) : Nat := 1 <<< (b.toNat / 2)

/-- The backoff draw: 1 + (rnd mod W), in octet-times, `rnd` being RND_W bits (43_arbiter_send.md R170; 00_scope.md R6). -/
def boDraw (p : Params) (b : BitVec 4) (rnd : Byte) : BitVec 5 :=
  BitVec.ofNat 5 (1 + rnd.toNat % 2 ^ p.rndW % boWindow b)

/-! ## The frame assembler -/

/-- A collision event the receive path flags and counts (44_arbiter_receive.md R201, R205). -/
def State.flagCollision (s : State) : State := { s with collision := true, statColl := incStat s.params s.statColl }

/-- The mode of a frame, chosen once at its SYNC (44_arbiter_receive.md R201). -/
def State.modeAtSync (s : State) : RxMode :=
  if s.checkSending then .self else if s.frameReady then .drop else .store

/-- A FRAME_SYNC: collision if mid-frame, then a fresh frame (44_arbiter_receive.md R201). -/
def State.syncFrame (s : State) : State :=
  { s with
    collision := if s.rxMode = .listen then s.collision else true
    statColl := if s.rxMode = .listen then s.statColl else incStat s.params s.statColl
    rxMode := s.modeAtSync
    rxIdx := 0
    rxEsc := false
    rxCrc := s.params.crcInit }

/-- SELF compare of the byte at the present index against the byte sent there, and SELF completion on the last one
(44_arbiter_receive.md R205, R206). -/
def State.selfCompare (s : State) (expected d : Byte) : State :=
  if d ≠ expected then { s.flagCollision with rxMode := .listen }
  else if s.rxIdx.toNat = Config.payloadSize + 1 then { s with echoOk := true, rxMode := .listen }
  else { s with rxIdx := s.rxIdx + 1 }

/-- Payload byte `i` of a STORE or DROP frame (44_arbiter_receive.md R208). -/
def State.payloadByte (s : State) (i : BitVec 4) (d : Byte) : State :=
  { s with
    rxbuf := if s.rxMode = .store then bufSet s.rxbuf i d else s.rxbuf
    rxCrc := crcUpdate s.params s.rxCrc d
    rxIdx := i.setWidth 5 + 1 }

/-- The length-class filter on logical byte 0, going on with the payload rule for the expected class
(44_arbiter_receive.md R207). -/
def State.filterFirstByte (s : State) (cls : BitVec 2) (ptype : BitVec 6) : State :=
  if cls ≠ s.params.lenClassExpected then { s with rxMode := .listen } else s.payloadByte 0 (pidByte cls ptype)

/-- The CRC high byte of a STORE or DROP frame (44_arbiter_receive.md R209). -/
def State.crcHighByte (s : State) (d : Byte) : State := { s with rxCrchi := d, rxIdx := 17 }

/-- The CRC low byte and the end of a STORE or DROP frame: corruption, overflow, or delivery
(44_arbiter_receive.md R210). -/
def State.completeFrame (s : State) (d : Byte) : State :=
  if s.rxCrchi ++ d ≠ s.rxCrc ^^^ s.params.crcXorOut then
    { s with statColl := incStat s.params s.statColl, rxMode := .listen }
  else if s.rxMode = .drop then { s with statOvf := incStat s.params s.statOvf, rxMode := .listen }
  else { s with frameReady := true, statRecv := incStat s.params s.statRecv, rxMode := .listen }

end Sys2Proof.Machine
end

