-- ==== Sys2Proof/Machine/Ctrl.lean ====
section
/-! DEFINITION. The CTRLCMD rows and WR_CTRL, which runs them (spec 45_host_interface.md R236 to R239). -/

namespace Sys2Proof.Machine

/-- CTRL_TXDONE_CLR (R237). -/
def execCtrlTxdoneClr (s : State) : Result := .next { s with txDone := false }

/-- CTRL_MSG_DONE (R238). -/
def execCtrlMsgDone (s : State) : Result := .next { s with frameReady := false }

/-- CTRL_SEND (R239): ignored while a send is running. -/
def execCtrlSend (s : State) : Result := .next (if s.txState = .idle then s.acceptSend else s)

/-- A command runs if its bit was written as 1 (R236). -/
def runIf (bit : Bool) (command : State → Result) (s : State) : Result := if bit then command s else .next s

/-- WR_CTRL (R236): the enables are loaded on every write, then the commands run in the order TXDONE_CLR, MSG_DONE,
SEND. -/
def execWrCtrl (rxie txie send msgDone txdoneClr : Bool) (s : State) : Result :=
  andThen (runIf txdoneClr execCtrlTxdoneClr { s.answer 0 with rxie := rxie, txie := txie }) fun s1 =>
    andThen (runIf msgDone execCtrlMsgDone s1) fun s2 => runIf send execCtrlSend s2

end Sys2Proof.Machine
end

