-- ==== Sys2Proof/Machine/HostOps.lean ====
section
/-! DEFINITION. The HOST rows other than WR_CTRL (spec 45_host_interface.md R231 to R235, R240 to R251): the HOST phase
of a cycle. It runs first, so the state it reads is the end of the previous cycle (20_memory.md R72). Every row drives
`out.host_rdata`: 0 unless it is a read (R230). -/

namespace Sys2Proof.Machine

/-! ## Buffers -/

/-- RD_TXBUF (R231). -/
def execRdTxbuf (idx : BitVec 4) (s : State) : Result := .next (s.answer ((bufByte s.txbuf idx).setWidth 16))

/-- WR_TXBUF (R232): ignored unless the sequencer is IDLE. -/
def execWrTxbuf (idx : BitVec 4) (data : Byte) (s : State) : Result :=
  .next (if s.txState = .idle then { s.answer 0 with txbuf := bufSet s.txbuf idx data } else s.answer 0)

/-- RD_RXBUF (R233). -/
def execRdRxbuf (idx : BitVec 4) (s : State) : Result := .next (s.answer ((bufByte s.rxbuf idx).setWidth 16))

/-- WR_RXBUF (R234): no effect. -/
def execWrRxbuf (_idx : BitVec 4) (s : State) : Result := .next (s.answer 0)

/-! ## Registers -/

/-- RD_CTRL (R235). -/
def execRdCtrl (s : State) : Result := .next (s.answer s.ctrlWord)

/-- RD_TXLEN (R240). -/
def execRdTxlen (s : State) : Result := .next (s.answer (s.txlen.setWidth 16))

/-- WR_TXLEN (R241): accepted in every state. -/
def execWrTxlen (len : BitVec 5) (s : State) : Result := .next { s.answer 0 with txlen := len }

/-- RD_STATUS (R242). -/
def execRdStatus (s : State) : Result := .next (s.answer s.statusWord)

/-- RD_TXCRC (R243). -/
def execRdTxcrc (s : State) : Result := .next (s.answer s.txcrc)

/-- RD_STAT_SENT (R244). -/
def execRdStatSent (s : State) : Result := .next (s.answer s.statSent)

/-- RD_STAT_RECV (R245). -/
def execRdStatRecv (s : State) : Result := .next (s.answer s.statRecv)

/-- RD_STAT_COLL (R246). -/
def execRdStatColl (s : State) : Result := .next (s.answer s.statColl)

/-- RD_STAT_OVF (R247). -/
def execRdStatOvf (s : State) : Result := .next (s.answer s.statOvf)

/-- WR_STATUS (R248): no effect. -/
def execWrStatus (s : State) : Result := .next (s.answer 0)

/-- WR_TXCRC (R248): no effect. -/
def execWrTxcrc (s : State) : Result := .next (s.answer 0)

/-- WR_STAT (R248): no effect. -/
def execWrStat (_cnt : BitVec 2) (s : State) : Result := .next (s.answer 0)

/-! ## Reserved addresses and no access -/

/-- RD_RSVD_2X (R249): reads 0. -/
def execRdRsvd2x (_low : BitVec 3) (s : State) : Result := .next (s.answer 0)

/-- RD_RSVD_3X (R249): reads 0. -/
def execRdRsvd3x (_low : BitVec 4) (s : State) : Result := .next (s.answer 0)

/-- WR_RSVD_2X (R250): no effect. -/
def execWrRsvd2x (_low : BitVec 3) (s : State) : Result := .next (s.answer 0)

/-- WR_RSVD_3X (R250): no effect. -/
def execWrRsvd3x (_low : BitVec 4) (s : State) : Result := .next (s.answer 0)

/-- NOP (R251). -/
def execNop (s : State) : Result := .next (s.answer 0)

end Sys2Proof.Machine
end

