-- ==== Sys2Proof/Syntax.lean ====
section
/-! DEFINITION. The instructions: one constructor per row of spec/opcode_table.json (00_scope.md R3: host operations,
wire symbols and sequencer steps), in the table's order. Operands are the row's fields. -/

namespace Sys2Proof

/-- The 50 rows of the opcode table. -/
inductive Instr where
  -- Format HOST: the 24-bit transaction word (30_encoding.md R90, R97)
  /-- RD_TXBUF (45_host_interface.md R231). -/
  | rdTxbuf (idx : BitVec 4)
  /-- WR_TXBUF (R232). -/
  | wrTxbuf (idx : BitVec 4) (data : Byte)
  /-- RD_RXBUF (R233). -/
  | rdRxbuf (idx : BitVec 4)
  /-- WR_RXBUF (R234). -/
  | wrRxbuf (idx : BitVec 4)
  /-- RD_CTRL (R235). -/
  | rdCtrl
  /-- WR_CTRL (R236), with the enables and the command bits of 30_encoding.md R94. -/
  | wrCtrl (rxie txie send msgDone txdoneClr : Bool)
  /-- RD_TXLEN (R240). -/
  | rdTxlen
  /-- WR_TXLEN (R241). -/
  | wrTxlen (len : BitVec 5)
  /-- RD_STATUS (R242). -/
  | rdStatus
  /-- RD_TXCRC (R243). -/
  | rdTxcrc
  /-- RD_STAT_SENT (R244). -/
  | rdStatSent
  /-- RD_STAT_RECV (R245). -/
  | rdStatRecv
  /-- RD_STAT_COLL (R246). -/
  | rdStatColl
  /-- RD_STAT_OVF (R247). -/
  | rdStatOvf
  /-- WR_STATUS (R248). -/
  | wrStatus
  /-- WR_TXCRC (R248). -/
  | wrTxcrc
  /-- WR_STAT (R248): a write to counter `cnt`. -/
  | wrStat (cnt : BitVec 2)
  /-- RD_RSVD_2X (R249): addresses 0x28..0x2F, `low` = ADDR[2:0]. -/
  | rdRsvd2x (low : BitVec 3)
  /-- RD_RSVD_3X (R249): addresses 0x30..0x3F, `low` = ADDR[3:0]. -/
  | rdRsvd3x (low : BitVec 4)
  /-- WR_RSVD_2X (R250). -/
  | wrRsvd2x (low : BitVec 3)
  /-- WR_RSVD_3X (R250). -/
  | wrRsvd3x (low : BitVec 4)
  /-- NOP (R251): a cycle with no host access. -/
  | nop
  -- Format CTRLCMD: the WDATA of a WR_CTRL
  /-- CTRL_TXDONE_CLR (R237). -/
  | ctrlTxdoneClr
  /-- CTRL_MSG_DONE (R238). -/
  | ctrlMsgDone
  /-- CTRL_SEND (R239). -/
  | ctrlSend
  -- Format RXSYM: the 9-bit value of rx_esc and the received byte (30_encoding.md R103)
  /-- RX_SYNC (44_arbiter_receive.md R201): b = 0x7E, any `rx_esc`. -/
  | rxSync (esc : Bool)
  /-- RX_ESC_PREFIX (R203): `rx_esc` = 0, b = 0x7D. -/
  | rxEscPrefix
  /-- RX_ESCAPED (R204): `rx_esc` = 1, any other b. -/
  | rxEscaped (b : Byte)
  /-- RX_LITERAL (R204): `rx_esc` = 0, any other b. -/
  | rxLiteral (b : Byte)
  -- Format TXENC: a logical byte to send (30_encoding.md R104)
  /-- TX_ENC_SYNC (41_frame_codec.md R126): v = 0x7E. -/
  | txEncSync
  /-- TX_ENC_ESC (R126): v = 0x7D. -/
  | txEncEsc
  /-- TX_ENC_PLAIN (R126): any other v. -/
  | txEncPlain (v : Byte)
  -- Format PID: logical byte 0 of a received frame (30_encoding.md R100, R101)
  /-- PID_LEN16 (44_arbiter_receive.md R207). -/
  | pidLen16 (ptype : BitVec 6)
  /-- PID_LEN32 (R207). -/
  | pidLen32 (ptype : BitVec 6)
  /-- PID_LEN48 (R207). -/
  | pidLen48 (ptype : BitVec 6)
  /-- PID_RSVD (R207). -/
  | pidRsvd (ptype : BitVec 6)
  -- Format TXSTATE: the control state of the transmit sequencer (30_encoding.md R108)
  /-- TXS_IDLE (43_arbiter_send.md R160). -/
  | txsIdle
  /-- TXS_SENSE_START (R161). -/
  | txsSenseStart
  /-- TXS_SENSE_WAIT (R162). -/
  | txsSenseWait
  /-- TXS_TX_BEGIN (R163). -/
  | txsTxBegin
  /-- TXS_TX_SEND (R164). -/
  | txsTxSend
  /-- TXS_TX_DRAIN (R165). -/
  | txsTxDrain
  /-- TXS_ECHO_START (R166). -/
  | txsEchoStart
  /-- TXS_ECHO_WAIT (R167). -/
  | txsEchoWait
  /-- TXS_BO_IDLE_START (R168). -/
  | txsBoIdleStart
  /-- TXS_BO_IDLE_WAIT (R169). -/
  | txsBoIdleWait
  /-- TXS_BO_RAND_START (R170). -/
  | txsBoRandStart
  /-- TXS_BO_RAND_WAIT (R171). -/
  | txsBoRandWait
  /-- TXS_BO_CHECK_START (R172). -/
  | txsBoCheckStart
  /-- TXS_BO_CHECK_WAIT (R173). -/
  | txsBoCheckWait
  deriving DecidableEq, Repr

end Sys2Proof
end

