-- ==== Sys2Proof/WellFormed.lean ====
section
/-! DEFINITION. Which instruction terms stand for words of their row. The rows of RXSYM and TXENC are tried in
priority order and the first match wins (30_encoding.md R103, R104), so the later rows exclude the bytes of the
earlier ones. Every other row takes every value of its fields. -/

namespace Sys2Proof

/-- A term is well formed when some word of its row decodes to it. -/
def Instr.wellFormed : Instr → Bool
  -- ESCAPED: any other b than FRAME_SYNC (R103)
  | .rxEscaped b => decide (b ≠ Config.frameSync)
  -- LITERAL: any other b than FRAME_SYNC and FRAME_ESC (R103)
  | .rxLiteral b => decide (b ≠ Config.frameSync) && decide (b ≠ Config.frameEsc)
  -- PLAIN: every other v than FRAME_SYNC and FRAME_ESC (R104)
  | .txEncPlain v => decide (v ≠ Config.frameSync) && decide (v ≠ Config.frameEsc)
  | .rdTxbuf _ => true
  | .wrTxbuf _ _ => true
  | .rdRxbuf _ => true
  | .wrRxbuf _ => true
  | .rdCtrl => true
  | .wrCtrl _ _ _ _ _ => true
  | .rdTxlen => true
  | .wrTxlen _ => true
  | .rdStatus => true
  | .rdTxcrc => true
  | .rdStatSent => true
  | .rdStatRecv => true
  | .rdStatColl => true
  | .rdStatOvf => true
  | .wrStatus => true
  | .wrTxcrc => true
  | .wrStat _ => true
  | .rdRsvd2x _ => true
  | .rdRsvd3x _ => true
  | .wrRsvd2x _ => true
  | .wrRsvd3x _ => true
  | .nop => true
  | .ctrlTxdoneClr => true
  | .ctrlMsgDone => true
  | .ctrlSend => true
  | .rxSync _ => true
  | .rxEscPrefix => true
  | .txEncSync => true
  | .txEncEsc => true
  | .pidLen16 _ => true
  | .pidLen32 _ => true
  | .pidLen48 _ => true
  | .pidRsvd _ => true
  | .txsIdle => true
  | .txsSenseStart => true
  | .txsSenseWait => true
  | .txsTxBegin => true
  | .txsTxSend => true
  | .txsTxDrain => true
  | .txsEchoStart => true
  | .txsEchoWait => true
  | .txsBoIdleStart => true
  | .txsBoIdleWait => true
  | .txsBoRandStart => true
  | .txsBoRandWait => true
  | .txsBoCheckStart => true
  | .txsBoCheckWait => true

end Sys2Proof
end

