-- ==== Sys2Proof/Decode.lean ====
section
/-! DEFINITION. The decoder and the encoder of the six encoded formats (spec 30_encoding.md; opcode_table.json). A
format is an encoded surface of its own: the same bits mean different rows on different surfaces, so a word carries
its format. -/

namespace Sys2Proof

/-- An encoded word with its format (30_encoding.md, the list of formats at its head). -/
inductive Code where
  /-- HOST: the 24-bit transaction word (R90). -/
  | host (w : Txn)
  /-- CTRLCMD: the WDATA of a WR_CTRL (R94). -/
  | ctrlCmd (wd : Word)
  /-- RXSYM: the 9-bit value of `rx_esc` and the received byte (R103). -/
  | rxSym (v : BitVec 9)
  /-- TXENC: a logical byte to send (R104). -/
  | txEnc (v : Byte)
  /-- PID: logical byte 0 of a received frame (R101). -/
  | pid (d : Byte)
  /-- TXSTATE: the 4-bit `tx_state` (R108). -/
  | txState (c : BitVec 4)
  deriving DecidableEq, Repr

/-- Why a word is not one instruction. -/
inductive Reject where
  /-- `tx_state` 14 and 15 are reserved and unreachable (R107, R108). -/
  | reservedTxState (c : BitVec 4)
  /-- A CTRL write data word with no command bit names no CTRLCMD row. -/
  | noCommand
  /-- A CTRL write data word with several command bits names several CTRLCMD rows (they all act, R236). Log 17. -/
  | severalCommands
  deriving DecidableEq, Repr

/-! ## Host transactions -/

/-- `EN` of a transaction word (R90). -/
def txnEn (w : Txn) : Bool := w.getLsbD 23

/-- `WE` of a transaction word (R90). -/
def txnWe (w : Txn) : Bool := w.getLsbD 22

/-- `ADDR` of a transaction word (R90). -/
def txnAddr (w : Txn) : Addr := w.extractLsb' 16 6

/-- `WDATA` of a transaction word (R90). -/
def txnWdata (w : Txn) : Word := w.extractLsb' 0 16

/-- Decode of a read by its address (R91, R93): ADDR[5:4] first, then ADDR[3:0] in the control group. -/
def decodeRead (a : Addr) : Instr :=
  if a.extractLsb' 4 2 = 0b00#2 then .rdTxbuf (a.extractLsb' 0 4)
  else if a.extractLsb' 4 2 = 0b01#2 then .rdRxbuf (a.extractLsb' 0 4)
  else if a.extractLsb' 4 2 = 0b11#2 then .rdRsvd3x (a.extractLsb' 0 4)
  else
    match a.extractLsb' 0 4 with
    | 0x0#4 => .rdCtrl
    | 0x1#4 => .rdTxlen
    | 0x2#4 => .rdStatus
    | 0x3#4 => .rdTxcrc
    | 0x4#4 => .rdStatSent
    | 0x5#4 => .rdStatRecv
    | 0x6#4 => .rdStatColl
    | 0x7#4 => .rdStatOvf
    | _ => .rdRsvd2x (a.extractLsb' 0 3)

/-- Decode of a write by its address and data (R91, R93). Bits of `WDATA` that no field covers are ignored (R110). -/
def decodeWrite (a : Addr) (wd : Word) : Instr :=
  if a.extractLsb' 4 2 = 0b00#2 then .wrTxbuf (a.extractLsb' 0 4) (wd.extractLsb' 0 8)
  else if a.extractLsb' 4 2 = 0b01#2 then .wrRxbuf (a.extractLsb' 0 4)
  else if a.extractLsb' 4 2 = 0b11#2 then .wrRsvd3x (a.extractLsb' 0 4)
  else
    match a.extractLsb' 0 4 with
    | 0x0#4 => .wrCtrl (wd.getLsbD 0) (wd.getLsbD 1) (wd.getLsbD 8) (wd.getLsbD 9) (wd.getLsbD 10)
    | 0x1#4 => .wrTxlen (wd.extractLsb' 0 5)
    | 0x2#4 => .wrStatus
    | 0x3#4 => .wrTxcrc
    | 0x4#4 => .wrStat 0
    | 0x5#4 => .wrStat 1
    | 0x6#4 => .wrStat 2
    | 0x7#4 => .wrStat 3
    | _ => .wrRsvd2x (a.extractLsb' 0 3)

/-- Decode of a transaction word. Total: no host transaction is illegal (R97, R110). -/
def decodeHost (w : Txn) : Instr :=
  if txnEn w = false then .nop
  else if txnWe w then decodeWrite (txnAddr w) (txnWdata w)
  else decodeRead (txnAddr w)

/-! ## The other formats -/

/-- The command rows a CTRL write data word selects, in the order in which they act (45_host_interface.md R236). -/
def decodeCommands (wd : Word) : List Instr :=
  (if wd.getLsbD 10 then [Instr.ctrlTxdoneClr] else []) ++
    ((if wd.getLsbD 9 then [Instr.ctrlMsgDone] else []) ++ (if wd.getLsbD 8 then [Instr.ctrlSend] else []))

/-- Class of a received symbol, under a configuration's FRAME_SYNC and FRAME_ESC: priority SYNC, ESC_PREFIX, ESCAPED,
LITERAL (R103). -/
def decodeRxSymWith (p : Params) (v : BitVec 9) : Instr :=
  if v.extractLsb' 0 8 = p.frameSync then .rxSync (v.getLsbD 8)
  else if v.getLsbD 8 then .rxEscaped (v.extractLsb' 0 8)
  else if v.extractLsb' 0 8 = p.frameEsc then .rxEscPrefix
  else .rxLiteral (v.extractLsb' 0 8)

/-- Class of a logical byte to send, under a configuration's FRAME_SYNC and FRAME_ESC (R104). -/
def decodeTxEncWith (p : Params) (v : Byte) : Instr :=
  if v = p.frameSync then .txEncSync
  else if v = p.frameEsc then .txEncEsc
  else .txEncPlain v

/-- LEN_CLASS of a PROTOCOL_ID byte (R101). -/
def lenClass (d : Byte) : BitVec 2 := d.extractLsb' 6 2

/-- PTYPE of a PROTOCOL_ID byte (R101). -/
def protoType (d : Byte) : BitVec 6 := d.extractLsb' 0 6

/-- Class of a PROTOCOL_ID byte (R100). -/
def decodePid (d : Byte) : Instr :=
  if lenClass d = 0b00#2 then .pidLen16 (protoType d)
  else if lenClass d = 0b01#2 then .pidLen32 (protoType d)
  else if lenClass d = 0b10#2 then .pidLen48 (protoType d)
  else .pidRsvd (protoType d)

/-- The sequencer row of a `tx_state` code (R108); 14 and 15 are reserved (R107). -/
def decodeTxState (c : BitVec 4) : Except Reject Instr :=
  match c with
  | 0x0#4 => .ok .txsIdle
  | 0x1#4 => .ok .txsSenseStart
  | 0x2#4 => .ok .txsSenseWait
  | 0x3#4 => .ok .txsTxBegin
  | 0x4#4 => .ok .txsTxSend
  | 0x5#4 => .ok .txsTxDrain
  | 0x6#4 => .ok .txsEchoStart
  | 0x7#4 => .ok .txsEchoWait
  | 0x8#4 => .ok .txsBoIdleStart
  | 0x9#4 => .ok .txsBoIdleWait
  | 0xA#4 => .ok .txsBoRandStart
  | 0xB#4 => .ok .txsBoRandWait
  | 0xC#4 => .ok .txsBoCheckStart
  | 0xD#4 => .ok .txsBoCheckWait
  | _ => .error (.reservedTxState c)

/-- The instruction a word of a format stands for under a configuration. Total, rejecting by name. -/
def decodeWith (p : Params) : Code → Except Reject Instr
  | .host w => .ok (decodeHost w)
  | .ctrlCmd wd =>
    match decodeCommands wd with
    | [] => .error .noCommand
    | [i] => .ok i
    | _ => .error .severalCommands
  | .rxSym v => .ok (decodeRxSymWith p v)
  | .txEnc v => .ok (decodeTxEncWith p v)
  | .pid d => .ok (decodePid d)
  | .txState c => decodeTxState c

/-- The instruction a word of the opcode table stands for: the table is that of the default configuration. -/
def decode (c : Code) : Except Reject Instr := decodeWith Config.params c

/-! ## The encoder -/

/-- The transaction word of an access (R90). -/
def txnWord (we : Bool) (a : Addr) (wd : Word) : Txn := 1#1 ++ BitVec.ofBool we ++ a ++ wd

/-- `RD a` of the program notation (30_encoding.md R111). -/
def rdWord (a : Addr) : Txn := txnWord false a 0

/-- `WR a, d` of the program notation (R111). -/
def wrWord (a : Addr) (d : Word) : Txn := txnWord true a d

/-- The WDATA of a CTRL write, from its fields (R94); reserved bits 0. -/
def ctrlWdata (rxie txie send msgDone txdoneClr : Bool) : Word :=
  0#5 ++ BitVec.ofBool txdoneClr ++ BitVec.ofBool msgDone ++ BitVec.ofBool send ++ 0#6 ++ BitVec.ofBool txie ++
    BitVec.ofBool rxie

/-- The word of an instruction under a configuration. Bits that no field of the row covers are 0 (log 18). -/
def encodeWith (p : Params) : Instr → Code
  | .rdTxbuf idx => .host (rdWord (0b00#2 ++ idx))
  | .wrTxbuf idx data => .host (wrWord (0b00#2 ++ idx) (0#8 ++ data))
  | .rdRxbuf idx => .host (rdWord (0b01#2 ++ idx))
  | .wrRxbuf idx => .host (wrWord (0b01#2 ++ idx) 0)
  | .rdCtrl => .host (rdWord 0x20)
  | .wrCtrl rxie txie send msgDone txdoneClr => .host (wrWord 0x20 (ctrlWdata rxie txie send msgDone txdoneClr))
  | .rdTxlen => .host (rdWord 0x21)
  | .wrTxlen len => .host (wrWord 0x21 (0#11 ++ len))
  | .rdStatus => .host (rdWord 0x22)
  | .rdTxcrc => .host (rdWord 0x23)
  | .rdStatSent => .host (rdWord 0x24)
  | .rdStatRecv => .host (rdWord 0x25)
  | .rdStatColl => .host (rdWord 0x26)
  | .rdStatOvf => .host (rdWord 0x27)
  | .wrStatus => .host (wrWord 0x22 0)
  | .wrTxcrc => .host (wrWord 0x23 0)
  | .wrStat cnt => .host (wrWord (0b1001#4 ++ cnt) 0)
  | .rdRsvd2x low => .host (rdWord (0b101#3 ++ low))
  | .rdRsvd3x low => .host (rdWord (0b11#2 ++ low))
  | .wrRsvd2x low => .host (wrWord (0b101#3 ++ low) 0)
  | .wrRsvd3x low => .host (wrWord (0b11#2 ++ low) 0)
  | .nop => .host 0
  | .ctrlTxdoneClr => .ctrlCmd 0x0400
  | .ctrlMsgDone => .ctrlCmd 0x0200
  | .ctrlSend => .ctrlCmd 0x0100
  | .rxSync esc => .rxSym (BitVec.ofBool esc ++ p.frameSync)
  | .rxEscPrefix => .rxSym (0#1 ++ p.frameEsc)
  | .rxEscaped b => .rxSym (1#1 ++ b)
  | .rxLiteral b => .rxSym (0#1 ++ b)
  | .txEncSync => .txEnc p.frameSync
  | .txEncEsc => .txEnc p.frameEsc
  | .txEncPlain v => .txEnc v
  | .pidLen16 ptype => .pid (0b00#2 ++ ptype)
  | .pidLen32 ptype => .pid (0b01#2 ++ ptype)
  | .pidLen48 ptype => .pid (0b10#2 ++ ptype)
  | .pidRsvd ptype => .pid (0b11#2 ++ ptype)
  | .txsIdle => .txState 0x0
  | .txsSenseStart => .txState 0x1
  | .txsSenseWait => .txState 0x2
  | .txsTxBegin => .txState 0x3
  | .txsTxSend => .txState 0x4
  | .txsTxDrain => .txState 0x5
  | .txsEchoStart => .txState 0x6
  | .txsEchoWait => .txState 0x7
  | .txsBoIdleStart => .txState 0x8
  | .txsBoIdleWait => .txState 0x9
  | .txsBoRandStart => .txState 0xA
  | .txsBoRandWait => .txState 0xB
  | .txsBoCheckStart => .txState 0xC
  | .txsBoCheckWait => .txState 0xD

/-- The word of an instruction in the opcode table, which is that of the default configuration. -/
def encode (i : Instr) : Code := encodeWith Config.params i

/-! ## The opcode table -/

/-- The six encoded formats (30_encoding.md, head of the file). -/
inductive Format where
  | host
  | ctrlCmd
  | rxSym
  | txEnc
  | pid
  | txState
  deriving DecidableEq, Repr

/-- The format of a word. -/
def Code.format : Code → Format
  | .host _ => .host
  | .ctrlCmd _ => .ctrlCmd
  | .rxSym _ => .rxSym
  | .txEnc _ => .txEnc
  | .pid _ => .pid
  | .txState _ => .txState

/-- The bits of a word, as a number with bit 0 the least significant. -/
def Code.value : Code → Nat
  | .host w => w.toNat
  | .ctrlCmd w => w.toNat
  | .rxSym w => w.toNat
  | .txEnc w => w.toNat
  | .pid w => w.toNat
  | .txState w => w.toNat

/-- A row of opcode_table.json: its format, match and mask. -/
structure TableRow where
  format : Format
  fixed : Nat
  mask : Nat
  deriving DecidableEq, Repr

/-- The table row of an instruction, with the match and mask opcode_table.json gives it. The decoder does not use it:
it is the table, to hold the decoder against. -/
def tableRow : Instr → TableRow
  | .rdTxbuf _ => ⟨.host, 0x800000, 0xF00000⟩
  | .wrTxbuf _ _ => ⟨.host, 0xC00000, 0xF00000⟩
  | .rdRxbuf _ => ⟨.host, 0x900000, 0xF00000⟩
  | .wrRxbuf _ => ⟨.host, 0xD00000, 0xF00000⟩
  | .rdCtrl => ⟨.host, 0xA00000, 0xFF0000⟩
  | .wrCtrl _ _ _ _ _ => ⟨.host, 0xE00000, 0xFF0000⟩
  | .rdTxlen => ⟨.host, 0xA10000, 0xFF0000⟩
  | .wrTxlen _ => ⟨.host, 0xE10000, 0xFF0000⟩
  | .rdStatus => ⟨.host, 0xA20000, 0xFF0000⟩
  | .rdTxcrc => ⟨.host, 0xA30000, 0xFF0000⟩
  | .rdStatSent => ⟨.host, 0xA40000, 0xFF0000⟩
  | .rdStatRecv => ⟨.host, 0xA50000, 0xFF0000⟩
  | .rdStatColl => ⟨.host, 0xA60000, 0xFF0000⟩
  | .rdStatOvf => ⟨.host, 0xA70000, 0xFF0000⟩
  | .wrStatus => ⟨.host, 0xE20000, 0xFF0000⟩
  | .wrTxcrc => ⟨.host, 0xE30000, 0xFF0000⟩
  | .wrStat _ => ⟨.host, 0xE40000, 0xFC0000⟩
  | .rdRsvd2x _ => ⟨.host, 0xA80000, 0xF80000⟩
  | .rdRsvd3x _ => ⟨.host, 0xB00000, 0xF00000⟩
  | .wrRsvd2x _ => ⟨.host, 0xE80000, 0xF80000⟩
  | .wrRsvd3x _ => ⟨.host, 0xF00000, 0xF00000⟩
  | .nop => ⟨.host, 0x000000, 0x800000⟩
  | .ctrlTxdoneClr => ⟨.ctrlCmd, 0x0400, 0x0400⟩
  | .ctrlMsgDone => ⟨.ctrlCmd, 0x0200, 0x0200⟩
  | .ctrlSend => ⟨.ctrlCmd, 0x0100, 0x0100⟩
  | .rxSync _ => ⟨.rxSym, 0x07E, 0x0FF⟩
  | .rxEscPrefix => ⟨.rxSym, 0x07D, 0x1FF⟩
  | .rxEscaped _ => ⟨.rxSym, 0x100, 0x100⟩
  | .rxLiteral _ => ⟨.rxSym, 0x000, 0x100⟩
  | .txEncSync => ⟨.txEnc, 0x7E, 0xFF⟩
  | .txEncEsc => ⟨.txEnc, 0x7D, 0xFF⟩
  | .txEncPlain _ => ⟨.txEnc, 0x00, 0x00⟩
  | .pidLen16 _ => ⟨.pid, 0x00, 0xC0⟩
  | .pidLen32 _ => ⟨.pid, 0x40, 0xC0⟩
  | .pidLen48 _ => ⟨.pid, 0x80, 0xC0⟩
  | .pidRsvd _ => ⟨.pid, 0xC0, 0xC0⟩
  | .txsIdle => ⟨.txState, 0x0, 0xF⟩
  | .txsSenseStart => ⟨.txState, 0x1, 0xF⟩
  | .txsSenseWait => ⟨.txState, 0x2, 0xF⟩
  | .txsTxBegin => ⟨.txState, 0x3, 0xF⟩
  | .txsTxSend => ⟨.txState, 0x4, 0xF⟩
  | .txsTxDrain => ⟨.txState, 0x5, 0xF⟩
  | .txsEchoStart => ⟨.txState, 0x6, 0xF⟩
  | .txsEchoWait => ⟨.txState, 0x7, 0xF⟩
  | .txsBoIdleStart => ⟨.txState, 0x8, 0xF⟩
  | .txsBoIdleWait => ⟨.txState, 0x9, 0xF⟩
  | .txsBoRandStart => ⟨.txState, 0xA, 0xF⟩
  | .txsBoRandWait => ⟨.txState, 0xB, 0xF⟩
  | .txsBoCheckStart => ⟨.txState, 0xC, 0xF⟩
  | .txsBoCheckWait => ⟨.txState, 0xD, 0xF⟩

/-- A word matches a row: same format, and the masked bits are the row's. In RXSYM and TXENC the first match in the
table's order wins; in HOST, PID and TXSTATE at most one row matches (30_encoding.md). -/
def TableRow.matchesCode (r : TableRow) (c : Code) : Bool :=
  decide (c.format = r.format) && decide (c.value &&& r.mask = r.fixed)

/-! ## A word of the opcode table without its format -/

/-- The format a bare word of the opcode table is read in. DESIGN CHOICE, log 5: the six formats are six surfaces,
and a bare word of one or two bytes can belong to several; the width tells HOST from the rest, and on one or two
bytes the surface is picked as said in the log. No step of the machine uses this. -/
def tableCode (nbits w : Nat) : Code :=
  if 16 < nbits then .host (BitVec.ofNat 24 w)
  else if 8 < nbits then
    if 0x200 ≤ w ∨ w = 0x100 then .ctrlCmd (BitVec.ofNat 16 w) else .rxSym (BitVec.ofNat 9 w)
  else if nbits = 0 ∨ w = 0x7E ∨ w = 0x7D then .txEnc (BitVec.ofNat 8 w)
  else if w < 16 then .txState (BitVec.ofNat 4 w)
  else .pid (BitVec.ofNat 8 w)

/-- The instruction the decoder reads from a bare word of the opcode table. -/
def decodeTableWord (nbits w : Nat) : Option Instr :=
  match decode (tableCode nbits w) with
  | .ok i => some i
  | .error _ => none

end Sys2Proof
end

