-- ==== Sys2Proof/Machine/Pid.lean ====
section
/-! DEFINITION. The PID rows: logical byte 0 of a STORE or DROP frame, by its length class (spec
44_arbiter_receive.md R207; 30_encoding.md R100). The 32-byte, 48-byte and reserved classes are dropped silently. -/

namespace Sys2Proof.Machine

/-- PID_LEN16 (R207). -/
def execPidLen16 (ptype : BitVec 6) (s : State) : Result := .next (s.filterFirstByte 0b00 ptype)

/-- PID_LEN32 (R207). -/
def execPidLen32 (ptype : BitVec 6) (s : State) : Result := .next (s.filterFirstByte 0b01 ptype)

/-- PID_LEN48 (R207). -/
def execPidLen48 (ptype : BitVec 6) (s : State) : Result := .next (s.filterFirstByte 0b10 ptype)

/-- PID_RSVD (R207). -/
def execPidRsvd (ptype : BitVec 6) (s : State) : Result := .next (s.filterFirstByte 0b11 ptype)

/-- The PID row of logical byte 0 (30_encoding.md R100, R101). -/
def firstByte (d : Byte) (s : State) : Result :=
  if lenClass d = 0b00#2 then execPidLen16 (protoType d) s
  else if lenClass d = 0b01#2 then execPidLen32 (protoType d) s
  else if lenClass d = 0b10#2 then execPidLen48 (protoType d) s
  else execPidRsvd (protoType d) s

end Sys2Proof.Machine
end

