-- ==== Sys2Proof/Machine/Rx.lean ====
section
/-! DEFINITION. The RXSYM rows: one received wire byte (spec 44_arbiter_receive.md R200 to R210). In LISTEN every
symbol but SYNC is ignored (R202). -/

namespace Sys2Proof.Machine

/-- A destuffed data byte of a SELF frame (R204, R205, R206). An index past the frame has no rule: stuck, log 7. -/
def selfData (d : Byte) (s : State) : Result :=
  match s.frameByte s.rxIdx.toNat with
  | some expected => .next (s.selfCompare expected d)
  | none => .fault .receiverPastFrame

/-- A destuffed data byte of a STORE or DROP frame, by its index (R204, R207 to R210). An index past the frame has no
rule: stuck, log 7. -/
def mailboxData (d : Byte) (s : State) : Result :=
  if s.rxIdx.toNat = 0 then firstByte d s
  else if s.rxIdx.toNat < Config.payloadSize then .next (s.payloadByte (s.rxIdx.setWidth 4) d)
  else if s.rxIdx.toNat = Config.payloadSize then .next (s.crcHighByte d)
  else if s.rxIdx.toNat = Config.payloadSize + 1 then .next (s.completeFrame d)
  else .fault .receiverPastFrame

/-- A destuffed data byte: ignored in LISTEN with `rx_esc` kept (R202), else `rx_esc` is cleared and the mode decides
(R204). -/
def receiveData (d : Byte) (s : State) : Result :=
  match s.rxMode with
  | .listen => .next s
  | .self => selfData d { s with rxEsc := false }
  | .store => mailboxData d { s with rxEsc := false }
  | .drop => mailboxData d { s with rxEsc := false }

/-- RX_SYNC (R201), whatever `rx_esc` is. -/
def execRxSync (_esc : Bool) (s : State) : Result := .next s.syncFrame

/-- RX_ESC_PREFIX (R203; R202 in LISTEN). -/
def execRxEscPrefix (s : State) : Result := .next (if s.rxMode = .listen then s else { s with rxEsc := true })

/-- RX_ESCAPED (R204; R202 in LISTEN): the byte is unmasked. -/
def execRxEscaped (b : Byte) (s : State) : Result := receiveData (b ^^^ s.params.escMask) s

/-- RX_LITERAL (R204; R202 in LISTEN): the byte as it is. -/
def execRxLiteral (b : Byte) (s : State) : Result := receiveData b s

end Sys2Proof.Machine
end

