-- ==== Sys2Proof/Machine/TxEnc.lean ====
section
/-! DEFINITION. The TXENC rows: the next wire byte of a logical byte (spec 41_frame_codec.md R126 in the streaming
form of R127). A reserved byte takes two runs of its row: the prefix, then the masked byte. -/

namespace Sys2Proof.Machine

/-- TX_ENC_SYNC (R126): FRAME_SYNC, 0x7E, goes out as 7D 5E. -/
def execTxEncSync (s : State) : Result :=
  .next (if s.txHalf then s.sendMasked s.params.frameSync else s.sendPrefix)

/-- TX_ENC_ESC (R126): FRAME_ESC, 0x7D, goes out as 7D 5D. -/
def execTxEncEsc (s : State) : Result :=
  .next (if s.txHalf then s.sendMasked s.params.frameEsc else s.sendPrefix)

/-- TX_ENC_PLAIN (R126): any other byte goes out unchanged. The test of `tx_half` comes first in `next_wire` (R127). -/
def execTxEncPlain (v : Byte) (s : State) : Result :=
  .next (if s.txHalf then s.sendMasked v else s.sendPlain v)

/-- The TXENC row of a logical byte (30_encoding.md R104). -/
def encodeNext (v : Byte) (s : State) : Result :=
  if v = s.params.frameSync then execTxEncSync s
  else if v = s.params.frameEsc then execTxEncEsc s
  else execTxEncPlain v s

/-- `next_wire()` with its strobe (R127; 43_arbiter_send.md R164). Past the frame there is no logical byte: stuck,
log 8. -/
def nextWire (s : State) : Result :=
  if s.txPos = 0 then .next s.sendSync
  else
    match s.frameByte (s.txPos.toNat - 1) with
    | some v => encodeNext v s
    | none => .fault .encoderPastFrame

end Sys2Proof.Machine
end

