-- ==== Sys2Proof/Machine/TxSeq.lean ====
section
/-! DEFINITION. The TXSTATE rows: one step of the transmit sequencer in each of its 14 control states (spec
43_arbiter_send.md R160 to R173). The TX phase clears the requests and the strobe before it runs a row (R178). -/

namespace Sys2Proof.Machine

/-- The START of an idle check: restart the timer, arm the edge monitor, wait (R161, R168, R172). -/
def startIdleCheck (wait : TxState) (s : State) : Result :=
  .next ((s.requestTimerReset.requestEdgeArm).goTo wait)

/-- The end of an idle check, once the octet-time has elapsed: disarm and take the verdict (R162, R169, R173;
42_timing_monitor.md R145). -/
def finishIdleCheck (busy clear : TxState) (s : State) : Result :=
  .next (if s.octFlag then s.requestEdgeDisarm.goTo (if s.edgeSeen then busy else clear) else s)

/-- TXS_IDLE (R160): nothing. -/
def execTxsIdle (s : State) : Result := .next s

/-- TXS_SENSE_START (R161). -/
def execTxsSenseStart (s : State) : Result := startIdleCheck .senseWait s

/-- TXS_SENSE_WAIT (R162). -/
def execTxsSenseWait (s : State) : Result := finishIdleCheck .senseStart .txBegin s

/-- TXS_TX_BEGIN (R163): start an attempt. -/
def execTxsTxBegin (s : State) : Result :=
  .next
    { s with
      checkSending := true
      collision := false
      echoOk := false
      rxMode := .listen
      rxIdx := 0
      rxEsc := false
      de := true
      txPos := 0
      txHalf := false
      txState := .txSend }

/-- TXS_TX_SEND (R164): the collision test first, then at most one wire byte. -/
def execTxsTxSend (s : State) : Result :=
  if s.collision then .next (s.collide false)
  else if s.inp.uartReady then
    andThen (nextWire s) fun t => .next (if t.txPos = Config.txLastPos then t.goTo .txDrain else t)
  else .next s

/-- TXS_TX_DRAIN (R165). -/
def execTxsTxDrain (s : State) : Result :=
  .next
    (if s.collision then s.collide false
    else if s.inp.uartTxIdle then { s with de := false, txState := .echoStart }
    else s)

/-- TXS_ECHO_START (R166). -/
def execTxsEchoStart (s : State) : Result := .next { s.requestTimerReset with echoTmo := 0, txState := .echoWait }

/-- TXS_ECHO_WAIT (R167): `collision` first, then `echo_ok`, then the timeout. -/
def execTxsEchoWait (s : State) : Result :=
  .next
    (if s.collision then s.collide false
    else if s.echoOk then s.succeed
    else if s.octFlag then
      if (s.echoTmo + 1).toNat = s.params.echoTimeout then { s with echoTmo := s.echoTmo + 1 }.collide true
      else { s with echoTmo := s.echoTmo + 1 }.requestTimerReset
    else s)

/-- TXS_BO_IDLE_START (R168). -/
def execTxsBoIdleStart (s : State) : Result := startIdleCheck .boIdleWait s

/-- TXS_BO_IDLE_WAIT (R169). -/
def execTxsBoIdleWait (s : State) : Result := finishIdleCheck .boIdleStart .boRandStart s

/-- TXS_BO_RAND_START (R170): a fresh draw on each entry. -/
def execTxsBoRandStart (s : State) : Result :=
  .next { s.requestTimerReset with boWait := boDraw s.params s.bo s.inp.rnd, txState := .boRandWait }

/-- TXS_BO_RAND_WAIT (R171). -/
def execTxsBoRandWait (s : State) : Result :=
  .next
    (if s.octFlag then
      if s.boWait - 1 = 0 then { s with boWait := s.boWait - 1, txState := .boCheckStart }
      else { s with boWait := s.boWait - 1 }.requestTimerReset
    else s)

/-- TXS_BO_CHECK_START (R172). -/
def execTxsBoCheckStart (s : State) : Result := startIdleCheck .boCheckWait s

/-- TXS_BO_CHECK_WAIT (R173). -/
def execTxsBoCheckWait (s : State) : Result := finishIdleCheck .boRandStart .senseStart s

end Sys2Proof.Machine
end

