-- ==== Sys2Proof/Machine/Dispatch.lean ====
section
/-! DEFINITION. The dispatch: one arm per row of the opcode table, each one direct call of the row's meaning. -/

namespace Sys2Proof.Machine

/-- The meaning of a row: the effect of its rule on the state, in the phase the row belongs to. -/
def exec (i : Instr) (s : State) : Host.Outcome State Fault Refusal :=
  match i with
  | .rdTxbuf idx => Sys2Proof.Machine.execRdTxbuf idx s
  | .wrTxbuf idx data => Sys2Proof.Machine.execWrTxbuf idx data s
  | .rdRxbuf idx => Sys2Proof.Machine.execRdRxbuf idx s
  | .wrRxbuf idx => Sys2Proof.Machine.execWrRxbuf idx s
  | .rdCtrl => Sys2Proof.Machine.execRdCtrl s
  | .wrCtrl rxie txie send msgDone txdoneClr => Sys2Proof.Machine.execWrCtrl rxie txie send msgDone txdoneClr s
  | .rdTxlen => Sys2Proof.Machine.execRdTxlen s
  | .wrTxlen len => Sys2Proof.Machine.execWrTxlen len s
  | .rdStatus => Sys2Proof.Machine.execRdStatus s
  | .rdTxcrc => Sys2Proof.Machine.execRdTxcrc s
  | .rdStatSent => Sys2Proof.Machine.execRdStatSent s
  | .rdStatRecv => Sys2Proof.Machine.execRdStatRecv s
  | .rdStatColl => Sys2Proof.Machine.execRdStatColl s
  | .rdStatOvf => Sys2Proof.Machine.execRdStatOvf s
  | .wrStatus => Sys2Proof.Machine.execWrStatus s
  | .wrTxcrc => Sys2Proof.Machine.execWrTxcrc s
  | .wrStat cnt => Sys2Proof.Machine.execWrStat cnt s
  | .rdRsvd2x low => Sys2Proof.Machine.execRdRsvd2x low s
  | .rdRsvd3x low => Sys2Proof.Machine.execRdRsvd3x low s
  | .wrRsvd2x low => Sys2Proof.Machine.execWrRsvd2x low s
  | .wrRsvd3x low => Sys2Proof.Machine.execWrRsvd3x low s
  | .nop => Sys2Proof.Machine.execNop s
  | .ctrlTxdoneClr => Sys2Proof.Machine.execCtrlTxdoneClr s
  | .ctrlMsgDone => Sys2Proof.Machine.execCtrlMsgDone s
  | .ctrlSend => Sys2Proof.Machine.execCtrlSend s
  | .rxSync esc => Sys2Proof.Machine.execRxSync esc s
  | .rxEscPrefix => Sys2Proof.Machine.execRxEscPrefix s
  | .rxEscaped b => Sys2Proof.Machine.execRxEscaped b s
  | .rxLiteral b => Sys2Proof.Machine.execRxLiteral b s
  | .txEncSync => Sys2Proof.Machine.execTxEncSync s
  | .txEncEsc => Sys2Proof.Machine.execTxEncEsc s
  | .txEncPlain v => Sys2Proof.Machine.execTxEncPlain v s
  | .pidLen16 ptype => Sys2Proof.Machine.execPidLen16 ptype s
  | .pidLen32 ptype => Sys2Proof.Machine.execPidLen32 ptype s
  | .pidLen48 ptype => Sys2Proof.Machine.execPidLen48 ptype s
  | .pidRsvd ptype => Sys2Proof.Machine.execPidRsvd ptype s
  | .txsIdle => Sys2Proof.Machine.execTxsIdle s
  | .txsSenseStart => Sys2Proof.Machine.execTxsSenseStart s
  | .txsSenseWait => Sys2Proof.Machine.execTxsSenseWait s
  | .txsTxBegin => Sys2Proof.Machine.execTxsTxBegin s
  | .txsTxSend => Sys2Proof.Machine.execTxsTxSend s
  | .txsTxDrain => Sys2Proof.Machine.execTxsTxDrain s
  | .txsEchoStart => Sys2Proof.Machine.execTxsEchoStart s
  | .txsEchoWait => Sys2Proof.Machine.execTxsEchoWait s
  | .txsBoIdleStart => Sys2Proof.Machine.execTxsBoIdleStart s
  | .txsBoIdleWait => Sys2Proof.Machine.execTxsBoIdleWait s
  | .txsBoRandStart => Sys2Proof.Machine.execTxsBoRandStart s
  | .txsBoRandWait => Sys2Proof.Machine.execTxsBoRandWait s
  | .txsBoCheckStart => Sys2Proof.Machine.execTxsBoCheckStart s
  | .txsBoCheckWait => Sys2Proof.Machine.execTxsBoCheckWait s

end Sys2Proof.Machine
end

