-- ==== Sys2Proof/Machine/Timing.lean ====
section
/-! DEFINITION. The TMR phase: octet timer and edge monitor (spec 42_timing_monitor.md R142 to R144). -/

namespace Sys2Proof.Machine

/-- The octet timer's step: restart, count up to OCTET_TICKS, or hold (R142). -/
def timerStep (s : State) : State :=
  if s.reqTimerReset then { s with tmrCnt := 0, octFlag := false }
  else if s.tmrCnt < s.params.octetTicks then
    { s with tmrCnt := s.tmrCnt + 1, octFlag := if s.tmrCnt + 1 = s.params.octetTicks then true else s.octFlag }
  else s

/-- The edge monitor's step: arm, disarm, or watch the line (R143, R144). -/
def edgeStep (s : State) : State :=
  if s.reqEdgeArm then { s with edgeArmed := true, edgeSeen := false, linePrev := s.inp.rxLine }
  else if s.reqEdgeDisarm then { s with edgeArmed := false }
  else if s.edgeArmed then
    { s with edgeSeen := if s.inp.rxLine ≠ s.linePrev then true else s.edgeSeen, linePrev := s.inp.rxLine }
  else s

/-- The TMR phase consumes the TX phase's requests (20_memory.md R71; R141: they leave no state behind them). -/
def tmrPhase (s : State) : State := (edgeStep (timerStep s)).dropRequests

end Sys2Proof.Machine
end

