-- ==== Sys2Proof/Machine/Phases.lean ====
section
/-! DEFINITION. The four phases of a clock cycle (spec 20_memory.md R71, R72), the reset cycle (70_reset_and_hazards.md
R300), elaboration (00_scope.md R8), and how an instruction is put where the next cycle runs it. -/

namespace Sys2Proof.Machine

/-! ## Which row each phase runs -/

/-- The HOST row of the cycle: the one its transaction word decodes to (45_host_interface.md R230). -/
def hostRow (s : State) : Instr := decodeHost (hostTransaction s.inp)

/-- The RXSYM row of a received byte (30_encoding.md R103). -/
def rxRow (p : Params) (esc : Bool) (b : Byte) : Instr := decodeRxSymWith p (rxSymbol esc b)

/-- The TXSTATE row of a control state (30_encoding.md R108; 43_arbiter_send.md R178). -/
def txRow : TxState → Instr
  | .idle => .txsIdle
  | .senseStart => .txsSenseStart
  | .senseWait => .txsSenseWait
  | .txBegin => .txsTxBegin
  | .txSend => .txsTxSend
  | .txDrain => .txsTxDrain
  | .echoStart => .txsEchoStart
  | .echoWait => .txsEchoWait
  | .boIdleStart => .txsBoIdleStart
  | .boIdleWait => .txsBoIdleWait
  | .boRandStart => .txsBoRandStart
  | .boRandWait => .txsBoRandWait
  | .boCheckStart => .txsBoCheckStart
  | .boCheckWait => .txsBoCheckWait

/-! ## The phases -/

/-- HOST: at most one host access (R71; 45_host_interface.md R230). -/
def hostPhase (s : State) : Result := exec (hostRow s) s

/-- One received byte, processed once (44_arbiter_receive.md R200). -/
def receiveByte (b : Byte) (s : State) : Result := exec (rxRow s.params s.rxEsc b) s

/-- RX: the received byte, if one arrives (R71; 44_arbiter_receive.md R200). -/
def rxPhase (s : State) : Result := if s.inp.rxValid then receiveByte s.inp.rxByte s else .next s

/-- TX: clear the requests and the strobe, then run the one row that `tx_state` selects after the HOST phase
(43_arbiter_send.md R178). -/
def txPhase (s : State) : Result := exec (txRow s.txState) s.clearTxWires

/-- A cycle without reset: HOST, RX, TX, TMR (R71). -/
def cycle (s : State) : Result :=
  andThen (hostPhase s) fun s1 => andThen (rxPhase s1) fun s2 => andThen (txPhase s2) fun s3 => .next (tmrPhase s3).advance

/-- A cycle with `rst` = 1: no phase runs and every state element takes its reset value (70_reset_and_hazards.md R300).
The model's own fields are no state elements: the parameters stay, the inputs go on. Log 19. -/
def resetCycle (s : State) : State :=
  { State.resetWith s.params with feed := s.feed, draws := s.draws }.advance

/-- Received bytes one after the other, as the RX phase takes them (41_frame_codec.md R130). -/
def receiveAll : List Byte → State → Result
  | [], s => .next s
  | b :: bs, s => andThen (receiveByte b s) (receiveAll bs)

/-! ## Elaboration -/

/-- A refused elaboration yields no machine; an accepted one is the machine with those parameters, in its reset state
(00_scope.md R6, R8; 70_reset_and_hazards.md R302). -/
def elaborate (p : Params) : Option State :=
  if p.accepted then some (State.resetWith p) else none

/-! ## Placing an instruction -/

/-- Fix the input-port values of the next cycle. -/
def State.present (s : State) (i : Inputs) : State := { s with feed := i :: s.feed.tail }

/-- A cycle whose host ports carry a transaction word and whose other ports are quiet. -/
def hostInputs (w : Txn) : Inputs :=
  { Inputs.quiet with hostEn := txnEn w, hostWe := txnWe w, hostAddr := txnAddr w, hostWdata := txnWdata w }

/-- A cycle in which a byte is received and the other ports are quiet. -/
def rxInputs (b : Byte) : Inputs := { Inputs.quiet with rxValid := true, rxByte := b }

/-- Put an instruction where the next cycle runs it: on the host ports, on the receive port, as `tx_state`, as the
CTRL write data, as logical byte 0 of a mailbox frame, or as logical byte 0 of the frame being sent. DESIGN CHOICE,
log 6. -/
def State.place (s : State) (i : Instr) : State :=
  match encodeWith s.params i with
  | .host w => s.present (hostInputs w)
  | .ctrlCmd wd => s.present (hostInputs (wrWord 0x20 wd))
  | .rxSym v => { s with rxEsc := v.getLsbD 8 }.present (rxInputs (v.extractLsb' 0 8))
  | .txEnc v =>
    { s with txState := .txSend, txPos := 1, txbuf := bufSet s.txbuf 0 v, collision := false }.present Inputs.quiet
  | .pid d =>
    { s with rxMode := if s.rxMode = RxMode.drop then RxMode.drop else RxMode.store, rxIdx := 0, rxEsc := isReserved s.params d }.present
      (rxInputs (if isReserved s.params d then d ^^^ s.params.escMask else d))
  | .txState c => { s with txState := (TxState.ofCode c).getD s.txState }.present Inputs.quiet

end Sys2Proof.Machine
end

