-- ==== Sys2Proof/Machine/Step.lean ====
section
/-! DEFINITION. One step: one clock cycle (spec 10_state.md R20). -/

namespace Sys2Proof.Machine

/-- One clock cycle: the reset cycle, or the four phases (20_memory.md R71; 70_reset_and_hazards.md R300). -/
def step (s : State) : Host.Outcome State Fault Refusal := if s.inp.rst then .next (resetCycle s) else cycle s

/-- The state with a bare word of the opcode table placed where the next step runs it. Log 6. -/
def State.withFetchWord (s : State) (nbits w : Nat) : State :=
  match decodeTableWord nbits w with
  | some i => s.place i
  | none => s

end Sys2Proof.Machine
end

