-- ==== Sys2Proof/Machine/PseudoOps.lean ====
section
/-! DEFINITION. The application contract as host sequences (spec 45_host_interface.md R252 to R256), and the host that
runs one. They are no rows of the opcode table: each expands into host operations, one per cycle. Log 20. -/

namespace Sys2Proof.Machine

/-! ## The sequences -/

/-- One line of a host sequence. -/
inductive HostAction where
  /-- One host operation. -/
  | access (i : Instr)
  /-- Repeat RD_STATUS until a bit of the word read has a value. -/
  | statusUntil (bit : Nat) (value : Bool)
  /-- Repeat, until a bit of the word read has a value: wait for `irq`, making no access meanwhile, then RD_STATUS
  (R252, R256). -/
  | irqUntil (bit : Nat) (value : Bool)
  /-- RD_STATUS once; if the bit is 0 the sequence answers "none" and ends. -/
  | noneUnless (bit : Nat)
  deriving DecidableEq, Repr

/-- The bit of STATUS that is TX_BUSY (30_encoding.md R95). -/
def statusTxBusy : Nat := 0

/-- The bit of STATUS that is FRAME_READY (30_encoding.md R95). -/
def statusFrameReady : Nat := 1

/-- The bit of STATUS that is TX_DONE (30_encoding.md R95). -/
def statusTxDone : Nat := 2

/-- The payload writes of SEND_MESSAGE, from buffer index `k` on. -/
def payloadWrites : Nat → List Byte → List HostAction
  | _, [] => []
  | k, b :: bs => .access (.wrTxbuf (BitVec.ofNat 4 k) b) :: payloadWrites (k + 1) bs

/-- How SEND_MESSAGE waits for TX_DONE at its end (R252). -/
inductive FinalWait where
  /-- Not at all: the final wait is optional, `TX_DONE` being sticky. -/
  | skip
  /-- By reading STATUS. -/
  | poll
  /-- By `irq` with TXIE. -/
  | irq
  deriving DecidableEq, Repr

/-- The last line of SEND_MESSAGE (R252). -/
def FinalWait.actions : FinalWait → List HostAction
  | .skip => []
  | .poll => [.statusUntil statusTxDone true]
  | .irq => [.irqUntil statusTxDone true]

/-- `SEND_MESSAGE(p)` for at most 16 bytes, with the enables the host keeps; a wait by `irq` sets TXIE (R252). -/
def sendMessage (p : List Byte) (rxie txie : Bool) (wait : FinalWait) : List HostAction :=
  .statusUntil statusTxBusy false ::
    (payloadWrites 0 p ++
      .access (.wrTxlen (BitVec.ofNat 5 p.length)) ::
        .access (.wrCtrl rxie (txie || decide (wait = .irq)) true false false) :: wait.actions)

/-- `GET_MESSAGE()`: none unless FRAME_READY, else the 16 reads of RXBUF (R253). -/
def getMessage : List HostAction :=
  .noneUnless statusFrameReady :: (List.range Config.payloadSize).map fun k => .access (.rdRxbuf (BitVec.ofNat 4 k))

/-- What GET_MESSAGE answers in a state: the inbound buffer if a frame is ready (R253). -/
def State.message (s : State) : Option Buf := if s.frameReady then some s.rxbuf else none

/-- `MESSAGE_DONE()` with the enables the host keeps (R254). -/
def messageDone (rxie txie : Bool) : Instr := .wrCtrl rxie txie false true false

/-- `GET_STATS(id)`: RD 0x24 + id (R255). -/
def getStats (id : BitVec 2) : Instr := decodeRead (0b1001#4 ++ id)

/-! ## A host that runs a sequence, one host operation per cycle -/

/-- A host in the middle of a sequence, and the block it talks to. -/
structure HostRun where
  /-- The lines still to do, the present one first. -/
  todo : List HostAction
  /-- The words its accesses have read, in order. -/
  reads : List HostData
  /-- The sequence ended with "none". -/
  endedNone : Bool
  /-- The block at the end of the last cycle. -/
  block : State
  deriving DecidableEq, Repr

/-- The start of a sequence. -/
def HostRun.start (todo : List HostAction) (s : State) : HostRun :=
  { todo := todo, reads := [], endedNone := false, block := s }

/-- The host operation of the coming cycle; while it waits for `irq`, and after the last line, there is none. -/
def HostRun.operation (h : HostRun) : Instr :=
  match h.todo with
  | [] => .nop
  | .access i :: _ => i
  | .statusUntil _ _ :: _ => .rdStatus
  | .irqUntil _ _ :: _ => if h.block.outIrq then .rdStatus else .nop
  | .noneUnless _ :: _ => .rdStatus

/-- The transaction word of a host operation (30_encoding.md R90); other rows are no host operations. -/
def hostWord (i : Instr) : Txn :=
  match encode i with
  | .host w => w
  | _ => 0

/-- The input ports of the coming cycle with the host's transaction on them; the environment's other ports are as they
come. -/
def State.driveHost (s : State) (w : Txn) : State :=
  { s with
    feed :=
      { s.inp with hostEn := txnEn w, hostWe := txnWe w, hostAddr := txnAddr w, hostWdata := txnWdata w } ::
        s.feed.tail
    draws := if s.feed.isEmpty then s.draws + 1 else s.draws }

/-- What the host makes of a cycle that left the block in state `t` (R252, R253). -/
def HostRun.after (h : HostRun) (t : State) : HostRun :=
  match h.todo with
  | [] => { h with block := t }
  | .access i :: rest =>
    { h with
      todo := rest
      reads := if txnEn (hostWord i) && !txnWe (hostWord i) then h.reads ++ [t.hostRdata] else h.reads
      block := t }
  | .statusUntil bit value :: rest =>
    { h with todo := if t.hostRdata.getLsbD bit = value then rest else h.todo, block := t }
  | .irqUntil bit value :: rest =>
    { h with todo := if h.block.outIrq ∧ t.hostRdata.getLsbD bit = value then rest else h.todo, block := t }
  | .noneUnless bit :: rest =>
    if t.hostRdata.getLsbD bit then { h with todo := rest, block := t }
    else { h with todo := [], endedNone := true, block := t }

/-- One cycle of the host and the block; none if the block stops. -/
def HostRun.cycle (h : HostRun) : Option HostRun :=
  match step (h.block.driveHost (hostWord h.operation)) with
  | .next t => some (h.after t)
  | .fault _ => none
  | .refused _ => none

/-- A number of cycles of the host and the block. -/
def HostRun.run : Nat → HostRun → Option HostRun
  | 0, h => some h
  | n + 1, h => h.cycle.bind (HostRun.run n)

/-- What a finished GET_MESSAGE answers: none, or the 16 bytes read (R253). -/
def HostRun.answer (h : HostRun) : Option (List Byte) :=
  if h.endedNone then none else some (h.reads.map fun w => w.setWidth 8)

end Sys2Proof.Machine
end

