-- ==== Sys2Proof/Safety.lean ====
section
/-! DEFINITION. What counts as a good state and a safe step. `SpecInv` is the list I1 to I9 of spec 10_state.md R45.
`Inv` adds what the other rules say of every reachable state and what a step needs to keep `SpecInv`. -/

namespace Sys2Proof.Machine

/-- The states of an attempt: SELF checking is on (R45, I2). -/
def TxState.inAttempt : TxState → Bool
  | .txSend => true
  | .txDrain => true
  | .echoStart => true
  | .echoWait => true
  | .idle => false
  | .senseStart => false
  | .senseWait => false
  | .txBegin => false
  | .boIdleStart => false
  | .boIdleWait => false
  | .boRandStart => false
  | .boRandWait => false
  | .boCheckStart => false
  | .boCheckWait => false

/-- The states in which the line driver is on (R45, I4; 43_arbiter_send.md R181). -/
def TxState.driving (t : TxState) : Bool := decide (t = .txSend) || decide (t = .txDrain)

/-- The backoff states (10_state.md R31). -/
def TxState.inBackoff : TxState → Bool
  | .boIdleStart => true
  | .boIdleWait => true
  | .boRandStart => true
  | .boRandWait => true
  | .boCheckStart => true
  | .boCheckWait => true
  | .idle => false
  | .senseStart => false
  | .senseWait => false
  | .txBegin => false
  | .txSend => false
  | .txDrain => false
  | .echoStart => false
  | .echoWait => false

/-- The states that wait for an idle check, with the edge monitor armed (42_timing_monitor.md R148). -/
def TxState.checkingIdle (t : TxState) : Bool :=
  decide (t = .senseWait) || decide (t = .boIdleWait) || decide (t = .boCheckWait)

/-- The invariants I1 to I9 of 10_state.md R45. -/
structure SpecInv (s : State) : Prop where
  /-- I1 -/
  selfMeansSending : s.rxMode = .self → s.checkSending = true
  /-- I2 -/
  sendingInAttempt : s.checkSending = s.txState.inAttempt
  /-- I3 -/
  readyNotStoring : s.frameReady = true → s.rxMode ≠ .store
  /-- I4 -/
  driverOn : s.de = s.txState.driving
  /-- I5 -/
  idleQuiet : s.txState = .idle → s.checkSending = false ∧ s.de = false
  /-- I6, first half -/
  boBound : s.bo.toNat ≤ s.params.boMax
  /-- I6, second half -/
  boInBackoff : s.txState.inBackoff = true → 1 ≤ s.bo.toNat
  /-- I7 -/
  boWaitRange : s.txState = .boRandWait → 1 ≤ s.boWait.toNat ∧ s.boWait.toNat ≤ boWindow s.bo
  /-- I8, first half -/
  txPosBound : s.txPos.toNat ≤ Config.payloadSize + 3
  /-- I8, second half -/
  txHalfRange : s.txHalf = true → 1 ≤ s.txPos.toNat ∧ s.txPos.toNat ≤ Config.payloadSize + 2
  /-- I9 -/
  rxIdxBound : s.rxMode ≠ .listen → s.rxIdx.toNat ≤ Config.payloadSize + 1

/-- The invariant of the machine at the end of a cycle. -/
structure Inv (s : State) : Prop extends SpecInv s where
  /-- The parameters are this hardware's, for every value of the OPEN ones (00_scope.md R6). -/
  sourceLiterals : s.params.SourceLiterals
  /-- OCTET_TICKS is one an elaboration accepts (00_scope.md R8). -/
  ticksPositive : 1 ≤ s.params.octetTicks
  /-- In TX_SEND the frame is not yet handed over (43_arbiter_send.md R164; 41_frame_codec.md R127). -/
  sendUnfinished : s.txState = .txSend → s.txPos.toNat ≤ Config.payloadSize + 2
  /-- RX is in SELF or LISTEN during an attempt (60_exceptions.md R272). -/
  sendingNotMailbox : s.checkSending = true → s.rxMode = .self ∨ s.rxMode = .listen
  /-- A collision that RX flags while the driver is on is acted on in the same cycle (43_arbiter_send.md R182). -/
  drivingNoCollision : s.txState.driving = true → s.collision = false
  /-- `echo_tmo` never exceeds ECHO_TIMEOUT, and the wait ends when it gets there (43_arbiter_send.md R167). -/
  echoTmoBound : s.echoTmo.toNat ≤ 4 ∧ (s.txState = .echoWait → s.echoTmo.toNat < 4)
  /-- The octet timer counts up to OCTET_TICKS and flags it (42_timing_monitor.md R142). -/
  timerRange : s.tmrCnt ≤ s.params.octetTicks ∧ s.octFlag = decide (s.tmrCnt = s.params.octetTicks)
  /-- The edge monitor is armed exactly during an idle check (43_arbiter_send.md R161 to R173). -/
  armedWhileChecking : s.edgeArmed = s.txState.checkingIdle
  /-- `TX_DONE` is 0 while a send is running (45_host_interface.md R237). -/
  doneWhenIdle : s.txDone = true → s.txState = .idle
  /-- The cached CRC is the CRC of the outbound buffer while a send is running (44_arbiter_receive.md R206). -/
  crcCached : s.txState ≠ .idle → s.txcrc = computeCrc s.params s.txbuf
  /-- The requests of the TX phase leave no state behind them (42_timing_monitor.md R141). -/
  requestsLow : s.reqTimerReset = false ∧ s.reqEdgeArm = false ∧ s.reqEdgeDisarm = false

/-- A step is safe when it neither faults nor refuses and leaves a good state. -/
def SafeResult : Result → Prop
  | .next s => Inv s
  | .fault _ => False
  | .refused _ => False

/-! ## Runs that claims speak of -/

/-- TX_SEND run `n` times on a state, with the wire bytes it strobes in order; none if it stops
(43_arbiter_send.md R164; 41_frame_codec.md R127). -/
def sendRun : Nat → State → Option (List Byte × State)
  | 0, s => some ([], s)
  | n + 1, s =>
    match exec .txsTxSend s with
    | .next t => (sendRun n t).map fun r => (t.txByte :: r.1, r.2)
    | .fault _ => none
    | .refused _ => none

/-- The TMR phase run over successive levels of the receive line (42_timing_monitor.md R146). -/
def watchLine (lines : List Bool) (s : State) : State :=
  lines.foldl (fun t l => tmrPhase (t.present { t.inp with rxLine := l })) s

/-- The destuffed data bytes of a wire byte string, starting from an escape flag (41_frame_codec.md R129). -/
def destuff (p : Params) : List Byte → Bool → List Byte
  | [], _ => []
  | b :: bs, esc =>
    match decodeSymbol p b esc with
    | (.data d, esc') => d :: destuff p bs esc'
    | (.none, esc') => destuff p bs esc'
    | (.sync, esc') => destuff p bs esc'

end Sys2Proof.Machine
end

