-- ==== Sys2Proof/Certificates/Slice0/Obligations.lean ====
section
/-! DEFINITION. The statements for the provers. Each docstring names the rule of the spec it formalises. Where a
statement gives the next state as the old one with some fields replaced, every other field is unchanged: that is its
frame. -/

open Sys2Proof Sys2Proof.Machine

/-! ## Encodings -/

/-- Decoding an encoded well-formed instruction gives it back, for all 50 rows and every operand value
(30_encoding.md R90, R91, R94, R101, R103, R104, R108). -/
def Obligations.DecodeOfEncodeIsIdentity : Prop :=
  ∀ i : Instr, i.wellFormed = true → decode (encode i) = .ok i

/-- R97: every transaction word falls into exactly one HOST row of the opcode table, the one the decoder answers. -/
def Obligations.EveryTransactionHasExactlyOneRow : Prop :=
  ∀ w : Txn,
    (tableRow (decodeHost w)).matchesCode (.host w) = true ∧
      ∀ i : Instr, (tableRow i).matchesCode (.host w) = true → tableRow i = tableRow (decodeHost w)

/-- R103: the symbol of an escape flag and a byte is the first class of the table's priority order that it matches:
SYNC, ESC_PREFIX, ESCAPED, LITERAL; the instruction is well formed, and its row of the opcode table matches. -/
def Obligations.SymbolDecodeTakesFirstMatch : Prop :=
  ∀ (esc : Bool) (b : Byte), ∃ i : Instr,
    decode (.rxSym (BitVec.ofBool esc ++ b)) = .ok i ∧
      i =
        (if b = 0x7E then .rxSync esc
        else if esc = false ∧ b = 0x7D then .rxEscPrefix
        else if esc = true then .rxEscaped b
        else .rxLiteral b) ∧
        i.wellFormed = true ∧ (tableRow i).matchesCode (.rxSym (BitVec.ofBool esc ++ b)) = true

/-- A few words written out from 30_encoding.md R90, R93, R94, R103, R108 and 95_test_vectors.md decode to the
instruction they stand for. -/
def Obligations.WrittenOutWordsDecode : Prop :=
  decode (.host 0xC31242) = .ok (.wrTxbuf 3 0x42) ∧
    decode (.host 0x950000) = .ok (.rdRxbuf 5) ∧
      decode (.host 0xE00302) = .ok (.wrCtrl false true true true false) ∧
        decode (.host 0xE1FFFF) = .ok (.wrTxlen 31) ∧
          decode (.host 0xBF0000) = .ok (.rdRsvd3x 0xF) ∧
            decode (.ctrlCmd 0x0400) = .ok .ctrlTxdoneClr ∧
              decode (.rxSym 0x17E) = .ok (.rxSync true) ∧
                decode (.rxSym 0x17D) = .ok (.rxEscaped 0x7D) ∧
                  decode (.txEnc 0x7D) = .ok .txEncEsc ∧
                    decode (.pid 0x41) = .ok (.pidLen32 1) ∧
                      decode (.txState 0xD) = .ok .txsBoCheckWait ∧
                        decode (.txState 0xE) = .error (.reservedTxState 0xE)

/-! ## The cycle -/

/-- R71, R72, R178, R200, R230: a cycle without reset runs the row its transaction word decodes to, then (if a byte
arrives) the row its symbol decodes to, then, with the requests and the strobe cleared and `out.tx_byte` 0, the row of
`tx_state` after the HOST phase, then the TMR phase; the rows are those of the decoder. Then the next input comes up
(the model's own fields `feed` and `draws`, log 1). -/
def Obligations.StepRunsTheDecodedRows : Prop :=
  (∀ s : State, s.inp.rst = false →
    step s =
      andThen (exec (decodeHost (hostTransaction s.inp)) s) fun s1 =>
        andThen
          (if s1.inp.rxValid then exec (decodeRxSymWith s1.params (rxSymbol s1.rxEsc s1.inp.rxByte)) s1
          else .next s1) fun s2 =>
          andThen
            (exec (txRow s2.txState)
              { s2 with
                reqTimerReset := false, reqEdgeArm := false, reqEdgeDisarm := false, txStrobe := false, txByte := 0 })
            fun s3 => .next (tmrPhase s3).advance) ∧
    (∀ t : TxState, decode (.txState t.code) = .ok (txRow t)) ∧
      ∀ (p : Params) (v : BitVec 9), p.SourceLiterals → decode (.rxSym v) = .ok (decodeRxSymWith p v)

/-- The rows a phase runs inside another row are the decoder's: the TXENC row of a logical byte (R104), the PID row of
logical byte 0 (R100, R101), and the CTRLCMD rows of a CTRL write in the order TXDONE_CLR, MSG_DONE, SEND (R236). -/
def Obligations.NestedRowsAreTheDecodedRows : Prop :=
  (∀ (v : Byte) (s : State), encodeNext v s = exec (decodeTxEncWith s.params v) s) ∧
    (∀ (p : Params) (v : Byte), p.SourceLiterals → decode (.txEnc v) = .ok (decodeTxEncWith p v)) ∧
    (∀ (d : Byte) (s : State), firstByte d s = exec (decodePid d) s) ∧
      ∀ (rxie txie send msgDone txdoneClr : Bool) (s : State),
        exec (.wrCtrl rxie txie send msgDone txdoneClr) s =
          (decodeCommands (ctrlWdata rxie txie send msgDone txdoneClr)).foldl (fun r i => andThen r (exec i))
            (.next { s with hostRdata := 0, rxie := rxie, txie := txie })

/-- R300: in a cycle with `rst` = 1 every state element takes its reset value and every output is 0. Nothing is said here
of the model's own fields, the parameters and the inputs still to come. -/
def Obligations.ResetCycleGivesTheResetState : Prop :=
  ∀ s : State, s.inp.rst = true →
    ∃ t : State,
      step s = .next t ∧
        t =
          { State.reset with
            rxCrc := t.params.crcInit, params := t.params, feed := t.feed, draws := t.draws } ∧
            t.hostRdata = 0 ∧ t.txStrobe = false ∧ t.txByte = 0 ∧ t.outDe = false ∧ t.outIrq = false

/-- R301: the reset values of every state element, what the host then reads, and the invariants of R45. -/
def Obligations.ResetValues : Prop :=
  (∀ k : Fin 16, State.reset.txbuf[k] = 0 ∧ State.reset.rxbuf[k] = 0) ∧
    State.reset.txcrc = 0 ∧ State.reset.txlen = 16 ∧ State.reset.frameReady = false ∧ State.reset.txDone = false ∧
    State.reset.rxie = false ∧ State.reset.txie = false ∧
    State.reset.statSent = 0 ∧ State.reset.statRecv = 0 ∧ State.reset.statColl = 0 ∧ State.reset.statOvf = 0 ∧
    State.reset.txState = .idle ∧ State.reset.txPos = 0 ∧ State.reset.txHalf = false ∧ State.reset.bo = 0 ∧
    State.reset.boWait = 0 ∧ State.reset.echoTmo = 0 ∧ State.reset.checkSending = false ∧
    State.reset.collision = false ∧ State.reset.echoOk = false ∧ State.reset.de = false ∧
    State.reset.rxMode = .listen ∧ State.reset.rxIdx = 0 ∧ State.reset.rxEsc = false ∧
    State.reset.rxCrc = 0xFFFF ∧ State.reset.rxCrchi = 0 ∧
    State.reset.tmrCnt = 0 ∧ State.reset.octFlag = false ∧ State.reset.edgeArmed = false ∧
    State.reset.edgeSeen = false ∧ State.reset.linePrev = true ∧
    State.reset.statusWord = 0 ∧ State.reset.ctrlWord = 0 ∧ State.reset.registerWord 0x21 = 0x0010 ∧
    State.reset.irq = false ∧ SpecInv State.reset

/-- The invariant holds at reset (R301, R45). -/
def Obligations.ResetMeetsTheInvariant : Prop := Inv State.reset

/-- R45: every step keeps I1 to I9 and the model's further invariant, from every state that has it and for every value
of the inputs. -/
def Obligations.StepKeepsTheInvariant : Prop :=
  ∀ s t : State, Inv s → step s = .next t → Inv t

/-- R270: from every state that meets the invariant a step has a next state, whatever the inputs; and no step of any
state refuses. -/
def Obligations.StepNeverStops : Prop :=
  (∀ s : State, Inv s → ∃ t : State, step s = .next t) ∧ ∀ (s : State) (r : Refusal), step s ≠ .refused r

/-- The model's own fields: no step changes a parameter, and each step uses up one known input, or one draw when none
is known. The model's choice, logs 1, 2 and 19 (00_scope.md R6, R11). -/
def Obligations.StepKeepsTheParameters : Prop :=
  ∀ s t : State, step s = .next t →
    t.params = s.params ∧ t.feed = s.feed.tail ∧ t.draws = if s.feed = [] then s.draws + 1 else s.draws

/-- R8: an elaboration yields a machine exactly when OCTET_TICKS is at least 1, BAUD lies in 9600..115200 and P is 16,
whatever the other parameters are; that machine starts in the reset state and carries the given parameters. The
defaults of R6 are those of the table, and this hardware's configuration is accepted. -/
def Obligations.ElaborationRefusesOtherParameters : Prop :=
  (∀ p : Params,
    elaborate p =
      if 1 ≤ p.octetTicks ∧ 9600 ≤ p.baud ∧ p.baud ≤ 115200 ∧ p.payloadSize = 16 then
        some { State.reset with rxCrc := p.crcInit, params := p }
      else none) ∧
    (∀ ticks baud : Nat,
      ({ octetTicks := ticks, baud := baud } : Params) =
        { octetTicks := ticks, baud := baud, payloadSize := 16, frameSync := 0x7E, frameEsc := 0x7D, escMask := 0x20
          crcPoly := 0x1021, crcInit := 0xFFFF, crcReflected := true, crcXorOut := 0x0000, boMax := 8
          echoTimeout := 4, bitsPerOctet := 10, lenClassExpected := 0b00, statW := 16, rndW := 8 }) ∧
      Config.hostAw = 6 ∧ Config.hostDw = 16 ∧ elaborate Config.params = some State.reset

/-! ## Host operations -/

/-- R231, R233, R235, R240, R243 to R247, R249: a read of a buffer byte or a register answers it, zero-extended, a
reserved address answers 0, and nothing else changes (RD_STATUS has a statement of its own). -/
def Obligations.RegisterReads : Prop :=
  ∀ s : State,
    (∀ idx : BitVec 4, exec (.rdTxbuf idx) s = .next { s with hostRdata := (s.txbuf[idx.toFin]).setWidth 16 }) ∧
      (∀ idx : BitVec 4, exec (.rdRxbuf idx) s = .next { s with hostRdata := (s.rxbuf[idx.toFin]).setWidth 16 }) ∧
      exec .rdCtrl s = .next { s with hostRdata := 0#14 ++ BitVec.ofBool s.txie ++ BitVec.ofBool s.rxie } ∧
      exec .rdTxlen s = .next { s with hostRdata := s.txlen.setWidth 16 } ∧
      exec .rdTxcrc s = .next { s with hostRdata := s.txcrc } ∧
      exec .rdStatSent s = .next { s with hostRdata := s.statSent } ∧
      exec .rdStatRecv s = .next { s with hostRdata := s.statRecv } ∧
      exec .rdStatColl s = .next { s with hostRdata := s.statColl } ∧
      exec .rdStatOvf s = .next { s with hostRdata := s.statOvf } ∧
      (∀ low : BitVec 3, exec (.rdRsvd2x low) s = .next { s with hostRdata := 0 }) ∧
      ∀ low : BitVec 4, exec (.rdRsvd3x low) s = .next { s with hostRdata := 0 }

/-- R242, R95: RD_STATUS answers the word with the fields of R95 and changes nothing else. -/
def Obligations.StatusReadShowsEveryField : Prop :=
  ∀ s : State, ∃ w : Word,
    exec .rdStatus s = .next { s with hostRdata := w } ∧
      w.getLsbD 0 = decide (s.txState ≠ .idle) ∧
      w.getLsbD 1 = s.frameReady ∧
      w.getLsbD 2 = s.txDone ∧
      w.getLsbD 3 = s.checkSending ∧
      w.extractLsb' 4 4 = s.bo ∧
      decode (.txState (w.extractLsb' 8 4)) = .ok (txRow s.txState) ∧
      w.extractLsb' 12 2 =
        (match s.rxMode with
        | .listen => 0#2
        | .self => 1#2
        | .store => 2#2
        | .drop => 3#2) ∧
      w.getLsbD 14 = s.de ∧
      w.getLsbD 15 = false

/-- R91, R93, R96: the read transaction of each of the 64 addresses answers what the register map puts there. -/
def Obligations.HostReadFollowsTheRegisterMap : Prop :=
  ∀ (a : Addr) (s : State),
    exec (decodeHost (rdWord a)) s =
      .next
        { s with
          hostRdata :=
            if a.toNat < 0x10 then (s.txbuf[(a.setWidth 4).toFin]).setWidth 16
            else if a.toNat < 0x20 then (s.rxbuf[(a.setWidth 4).toFin]).setWidth 16
            else if a.toNat = 0x20 then s.ctrlWord
            else if a.toNat = 0x21 then s.txlen.setWidth 16
            else if a.toNat = 0x22 then s.statusWord
            else if a.toNat = 0x23 then s.txcrc
            else if a.toNat = 0x24 then s.statSent
            else if a.toNat = 0x25 then s.statRecv
            else if a.toNat = 0x26 then s.statColl
            else if a.toNat = 0x27 then s.statOvf
            else 0 }

/-- R234, R248, R250, R251: writes to read-only and reserved addresses, and a cycle with no access, change nothing but
the read-data output, which is 0. -/
def Obligations.WritesWithoutEffect : Prop :=
  ∀ s : State,
    (∀ idx : BitVec 4, exec (.wrRxbuf idx) s = .next { s with hostRdata := 0 }) ∧
      exec .wrStatus s = .next { s with hostRdata := 0 } ∧
      exec .wrTxcrc s = .next { s with hostRdata := 0 } ∧
      (∀ cnt : BitVec 2, exec (.wrStat cnt) s = .next { s with hostRdata := 0 }) ∧
      (∀ low : BitVec 3, exec (.wrRsvd2x low) s = .next { s with hostRdata := 0 }) ∧
      (∀ low : BitVec 4, exec (.wrRsvd3x low) s = .next { s with hostRdata := 0 }) ∧
      exec .nop s = .next { s with hostRdata := 0 }

/-- R76: a write transaction to any address other than CTRL (0x20), TXLEN (0x21) and TXBUF (0x00..0x0F) has no effect,
whatever its data. -/
def Obligations.OnlyThreeRegistersTakeWrites : Prop :=
  ∀ (a : Addr) (wd : Word) (s : State), 0x10 ≤ a.toNat → a.toNat ≠ 0x20 → a.toNat ≠ 0x21 →
    exec (decodeHost (wrWord a wd)) s = .next { s with hostRdata := 0 }

/-- R232: WR_TXBUF stores its byte at its index in IDLE and is dropped otherwise; nothing else changes. -/
def Obligations.TxbufWriteOnlyInIdle : Prop :=
  ∀ (idx : BitVec 4) (data : Byte) (s : State),
    (s.txState ≠ .idle → exec (.wrTxbuf idx data) s = .next { s with hostRdata := 0 }) ∧
      (s.txState = .idle →
        ∃ buf : Buf,
          exec (.wrTxbuf idx data) s = .next { s with hostRdata := 0, txbuf := buf } ∧
            ∀ k : Fin 16, buf[k] = if k = idx.toFin then data else s.txbuf[k])

/-- R241, R240: WR_TXLEN is accepted in every state, and RD_TXLEN then answers the five stored bits. -/
def Obligations.TxlenWriteThenRead : Prop :=
  ∀ (len : BitVec 5) (s : State),
    exec (.wrTxlen len) s = .next { s with hostRdata := 0, txlen := len } ∧
      exec .rdTxlen { s with hostRdata := 0, txlen := len } =
        .next { s with hostRdata := len.setWidth 16, txlen := len }

/-- R237, R238: the two clearing commands. -/
def Obligations.ClearingCommands : Prop :=
  ∀ s : State,
    exec .ctrlTxdoneClr s = .next { s with txDone := false } ∧
      exec .ctrlMsgDone s = .next { s with frameReady := false }

/-- R239: SEND in IDLE zeroes the bytes from min(TXLEN, 16) on, caches the CRC of the padded buffer, clears `bo` and
`TX_DONE` and starts the sequencer; otherwise it is ignored. -/
def Obligations.SendAcceptance : Prop :=
  ∀ s : State,
    (s.txState ≠ .idle → exec .ctrlSend s = .next s) ∧
      (s.txState = .idle →
        ∃ buf : Buf,
          (∀ k : Fin 16, buf[k] = if k.val < min s.txlen.toNat 16 then s.txbuf[k] else 0) ∧
            exec .ctrlSend s =
              .next
                { s with
                  txbuf := buf, txcrc := computeCrc s.params buf, bo := 0, txDone := false, txState := .senseStart })

/-- R236, R308: a CTRL write loads both enables, whatever its command bits, then runs TXDONE_CLR, MSG_DONE and SEND in
that order. -/
def Obligations.CtrlWriteLoadsEnablesThenCommands : Prop :=
  ∀ (rxie txie send msgDone txdoneClr : Bool) (s : State),
    exec (.wrCtrl rxie txie send msgDone txdoneClr) s =
      if send then
        exec .ctrlSend
          { s with
            hostRdata := 0, rxie := rxie, txie := txie
            txDone := if txdoneClr then false else s.txDone
            frameReady := if msgDone then false else s.frameReady }
      else
        .next
          { s with
            hostRdata := 0, rxie := rxie, txie := txie
            txDone := if txdoneClr then false else s.txDone
            frameReady := if msgDone then false else s.frameReady }

/-- R273, R274: `irq` is a function of the state: the OR of each pending bit with its enable, 0 after reset; a CTRL
write without commands changes it through the enables alone and leaves the pending bits. -/
def Obligations.IrqIsPendingAndEnabled : Prop :=
  State.reset.outIrq = false ∧
    (∀ s : State, s.outIrq = ((s.frameReady && s.rxie) || (s.txDone && s.txie))) ∧
    ∀ (s : State) (rxie txie : Bool), ∃ t : State,
      exec (.wrCtrl rxie txie false false false) s = .next t ∧
        t.outIrq = ((s.frameReady && rxie) || (s.txDone && txie)) ∧
          t.frameReady = s.frameReady ∧ t.txDone = s.txDone

/-! ## Receive path -/

/-- R201: a SYNC is a collision event exactly when it is mid-frame, and starts a fresh frame whose mode is chosen then;
a pending escape is discarded. -/
def Obligations.SyncStartsAFreshFrame : Prop :=
  ∀ (esc : Bool) (s : State),
    exec (.rxSync esc) s =
      .next
        { s with
          collision := if s.rxMode = .listen then s.collision else true
          statColl := if s.rxMode = .listen then s.statColl else incStat s.params s.statColl
          rxMode := if s.checkSending then .self else if s.frameReady then .drop else .store
          rxIdx := 0
          rxEsc := false
          rxCrc := s.params.crcInit }

/-- R202, R203: in LISTEN every symbol but SYNC is ignored, `rx_esc` included; mid-frame an escape prefix sets `rx_esc`
and nothing else. -/
def Obligations.ListenIgnoresAndEscapePrefix : Prop :=
  ∀ s : State,
    (s.rxMode = .listen →
      exec .rxEscPrefix s = .next s ∧
        ∀ b : Byte, exec (.rxEscaped b) s = .next s ∧ exec (.rxLiteral b) s = .next s) ∧
      (s.rxMode ≠ .listen → exec .rxEscPrefix s = .next { s with rxEsc := true })

/-- R204, R205, R206: in SELF a data byte (unmasked if escaped) is compared with the byte sent at its index: a mismatch
flags and counts a collision and ends the frame, a match on the last byte confirms the echo, any other match goes on. -/
def Obligations.SelfComparesTheEcho : Prop :=
  ∀ (s : State) (b e : Byte), s.rxMode = .self →
    (logicalFrame s.txbuf s.txcrc)[s.rxIdx.toNat]? = some e →
      (∀ d : Byte,
        ∀ i : Instr, (i = .rxLiteral b ∧ d = b) ∨ (i = .rxEscaped b ∧ d = b ^^^ s.params.escMask) →
          exec i s =
            .next
              (if d ≠ e then
                { s with
                  rxEsc := false, collision := true, statColl := incStat s.params s.statColl, rxMode := .listen }
              else if s.rxIdx.toNat = 17 then { s with rxEsc := false, echoOk := true, rxMode := .listen }
              else { s with rxEsc := false, rxIdx := s.rxIdx + 1 }))

/-- R204, R208: payload bytes of a STORE or DROP frame (byte 0 once it has passed the length-class filter of R207):
stored in STORE only, fed to the CRC in both. -/
def Obligations.PayloadBytesAreStoredAndSummed : Prop :=
  ∀ (s : State) (b : Byte), s.rxMode = .store ∨ s.rxMode = .drop →
    s.rxIdx.toNat < 16 →
      ∀ (d : Byte) (i : Instr), (i = .rxLiteral b ∧ d = b) ∨ (i = .rxEscaped b ∧ d = b ^^^ s.params.escMask) →
        (s.rxIdx = 0 → lenClass d = s.params.lenClassExpected) →
        ∃ buf : Buf,
          exec i s =
              .next
                { s with
                  rxEsc := false, rxbuf := buf, rxCrc := crcUpdate s.params s.rxCrc d, rxIdx := s.rxIdx + 1 } ∧
            ∀ k : Fin 16,
              buf[k] = if s.rxMode = .store ∧ k.val = s.rxIdx.toNat then d else s.rxbuf[k]

/-- R207, R208: logical byte 0 of a STORE or DROP frame: the expected class (00 by default) goes on with the payload
rule, every other class returns to LISTEN with nothing stored or counted; for each of the four PID rows. -/
def Obligations.LengthClassFilter : Prop :=
  (∀ (s : State) (b : Byte), s.rxMode = .store ∨ s.rxMode = .drop → s.rxIdx = 0 →
    exec (.rxLiteral b) s = exec (decodePid b) { s with rxEsc := false } ∧
      exec (.rxEscaped b) s = exec (decodePid (b ^^^ s.params.escMask)) { s with rxEsc := false }) ∧
    ∀ (s : State) (ptype : BitVec 6) (cls : BitVec 2) (i : Instr),
      (i = .pidLen16 ptype ∧ cls = 0b00) ∨ (i = .pidLen32 ptype ∧ cls = 0b01) ∨
          (i = .pidLen48 ptype ∧ cls = 0b10) ∨ (i = .pidRsvd ptype ∧ cls = 0b11) →
        (cls ≠ s.params.lenClassExpected → exec i s = .next { s with rxMode := .listen }) ∧
          (cls = s.params.lenClassExpected →
            ∃ buf : Buf,
              exec i s =
                  .next { s with rxbuf := buf, rxCrc := crcUpdate s.params s.rxCrc (cls ++ ptype), rxIdx := 1 } ∧
                ∀ k : Fin 16, buf[k] = if s.rxMode = .store ∧ k = 0 then cls ++ ptype else s.rxbuf[k])

/-- R209, R210: the CRC high byte is held and not fed to the CRC; the CRC low byte ends the frame: a CRC mismatch counts
as corruption, a valid DROP frame as an overflow, a valid STORE frame is delivered. -/
def Obligations.CrcBytesAndFrameCompletion : Prop :=
  ∀ (s : State) (b d : Byte) (i : Instr), s.rxMode = .store ∨ s.rxMode = .drop →
    (i = .rxLiteral b ∧ d = b) ∨ (i = .rxEscaped b ∧ d = b ^^^ s.params.escMask) →
      (s.rxIdx.toNat = 16 → exec i s = .next { s with rxEsc := false, rxCrchi := d, rxIdx := 17 }) ∧
        (s.rxIdx.toNat = 17 →
          exec i s =
            .next
              (if s.rxCrchi ++ d ≠ s.rxCrc ^^^ s.params.crcXorOut then
                { s with rxEsc := false, rxMode := .listen, statColl := incStat s.params s.statColl }
              else if s.rxMode = .drop then
                { s with rxEsc := false, rxMode := .listen, statOvf := incStat s.params s.statOvf }
              else
                { s with
                  rxEsc := false, rxMode := .listen, frameReady := true, statRecv := incStat s.params s.statRecv }))

/-- The one way the receive path stops: a data byte with `rx_idx` above 17, for which no rule says what happens; the
model's choice, log 7. No state that meets I9 of R45 has it. -/
def Obligations.DataPastTheFrameIsStuck : Prop :=
  ∀ (s : State) (b : Byte), s.rxMode ≠ .listen → 17 < s.rxIdx.toNat →
    exec (.rxLiteral b) s = .fault .receiverPastFrame ∧
      exec (.rxEscaped b) s = .fault .receiverPastFrame ∧ ¬SpecInv s

/-- R130, for every value of the OPEN parameters: the wire frame of any payload destuffs to its 18 logical bytes; and
from LISTEN with no send and an empty mailbox, the wire frame of any payload of length class 00 is received as that
payload: RXBUF holds it, FRAME_READY is set, STAT_RECV counts one, no other counter changes. -/
def Obligations.FrameRoundTrip : Prop :=
  (∀ (c : Params) (p : Buf) (esc : Bool), c.SourceLiterals →
    destuff c (encodeFrame c p) esc = p.toList ++ [crcHi (computeCrc c p), crcLo (computeCrc c p)]) ∧
  ∀ (p : Buf) (s : State), s.params.SourceLiterals →
    s.rxMode = .listen → s.checkSending = false → s.frameReady = false → lenClass p[(0 : Fin 16)] = 0 →
      receiveAll (encodeFrame s.params p) s =
        .next
          { s with
            rxbuf := p, frameReady := true, statRecv := s.statRecv + 1
            rxMode := .listen, rxIdx := 17, rxEsc := false
            rxCrc := crcFold s.params 0xFFFF p.toList, rxCrchi := crcHi (computeCrc s.params p) }

/-- R212, R211, R206, for every value of the OPEN parameters: the other outcomes of a whole valid frame from LISTEN:
with a full mailbox it counts one overflow and RXBUF is unchanged; of another length class it changes no buffer, flag
or counter; the echo of the frame being sent sets `echo_ok` and counts nothing. -/
def Obligations.OtherWholeFrameOutcomes : Prop :=
  ∀ (p : Buf) (s : State), s.params.SourceLiterals → s.rxMode = .listen →
    (s.checkSending = false → s.frameReady = true → lenClass p[(0 : Fin 16)] = 0 →
      receiveAll (encodeFrame s.params p) s =
        .next
          { s with
            statOvf := s.statOvf + 1, rxMode := .listen, rxIdx := 17, rxEsc := false
            rxCrc := crcFold s.params 0xFFFF p.toList, rxCrchi := crcHi (computeCrc s.params p) }) ∧
      (s.checkSending = false → lenClass p[(0 : Fin 16)] ≠ 0 →
        receiveAll (encodeFrame s.params p) s =
          .next { s with rxMode := .listen, rxIdx := 0, rxEsc := false, rxCrc := 0xFFFF }) ∧
        (s.checkSending = true →
          receiveAll (wireFrame s.params s.txbuf s.txcrc) s =
            .next
              { s with
                echoOk := true, rxMode := .listen, rxIdx := 17, rxEsc := false, rxCrc := 0xFFFF })

/-- R131: a SYNC makes the receive path forget the partial frame: what follows is the same whatever the mode, index,
escape flag, CRC and held CRC high byte were, but for one counted collision and the collision flag if a frame was in
progress. The held byte of the partial frame stands in `rx_crchi` until a later frame reaches its own CRC high byte:
`own` is the last such byte, if there is one, and the frame in progress at the end has one as soon as its CRC low byte
is next. -/
def Obligations.SyncForgetsThePartialFrame : Prop :=
  ∀ (bs : List Byte) (s : State), s.rxMode = .listen →
    ∃ own : Option Byte,
      (∀ (m : RxMode) (idx : BitVec 5) (esc : Bool) (crc : Word) (hi : Byte),
        receiveAll (s.params.frameSync :: bs)
            { s with rxMode := m, rxIdx := idx, rxEsc := esc, rxCrc := crc, rxCrchi := hi } =
          andThen (receiveAll (s.params.frameSync :: bs) s) fun t =>
            .next
              { t with
                collision := if m = .listen then t.collision else true
                statColl := if m = .listen then t.statColl else incStat s.params t.statColl
                rxCrchi := own.getD hi }) ∧
        ∀ t : State, receiveAll (s.params.frameSync :: bs) s = .next t →
          t.rxMode = .store ∨ t.rxMode = .drop → t.rxIdx.toNat = 17 → own.isSome = true

/-! ## Frame codec -/

/-- R126, R129: a stuffed byte holds no FRAME_SYNC, starts with FRAME_ESC exactly if the byte is reserved, and destuffs
to the byte. -/
def Obligations.StuffingIsReversible : Prop :=
  ∀ (p : Params) (v : Byte), p.SourceLiterals →
    0x7E ∉ encodeByte p v ∧
      encodeByte p v = (if v = 0x7E then [0x7D, 0x5E] else if v = 0x7D then [0x7D, 0x5D] else [v]) ∧
        ∀ rest : List Byte, destuff p (encodeByte p v ++ rest) false = v :: destuff p rest false

/-- R105: a frame with `n` reserved logical bytes takes 1 + 18 + n wire bytes, and so 19 to 37. -/
def Obligations.WireFrameLength : Prop :=
  ∀ (p : Params) (buf : Buf) (crc : Word),
    (wireFrame p buf crc).length = 19 + ((logicalFrame buf crc).filter (isReserved p)).length ∧
      19 ≤ (wireFrame p buf crc).length ∧ (wireFrame p buf crc).length ≤ 37

/-- R122: the reflected CRC step equals the closed form avr-libc documents, for every register value and byte. -/
def Obligations.ReflectedCrcClosedForm : Prop :=
  ∀ (c : Word) (d : Byte),
    crcUpdateReflected 0x1021 c d =
      let d1 : Byte := d ^^^ c.setWidth 8
      let d2 : Byte := d1 ^^^ (d1 <<< 4)
      (d2 ++ c.extractLsb' 8 8) ^^^ ((d2 >>> 4).setWidth 16) ^^^ ((d2.setWidth 16) <<< 3)

/-- R125: flipping any single bit of any payload changes its CRC, in both variants and for every preset and final
XOR. -/
def Obligations.SingleBitFlipsChangeTheCrc : Prop :=
  ∀ (c : Params) (p : Buf) (k : Fin 16) (bit : Fin 8), c.crcPoly = 0x1021 →
    computeCrc c (p.set k (p[k] ^^^ (1#8 <<< bit.val))) ≠ computeCrc c p

/-! ## Transmit sequencer -/

/-- R126, R127: one run of a TXENC row hands over the next wire byte of its logical byte: the masked byte if the prefix
has gone out, else the prefix of a reserved byte or the byte itself. -/
def Obligations.EncoderRows : Prop :=
  ∀ s : State,
    exec .txEncSync s =
        .next
          (if s.txHalf then
            { s with
              txStrobe := true, txByte := s.params.frameSync ^^^ s.params.escMask, txPos := s.txPos + 1
              txHalf := false }
          else { s with txStrobe := true, txByte := s.params.frameEsc, txHalf := true }) ∧
      exec .txEncEsc s =
          .next
            (if s.txHalf then
              { s with
                txStrobe := true, txByte := s.params.frameEsc ^^^ s.params.escMask, txPos := s.txPos + 1
                txHalf := false }
            else { s with txStrobe := true, txByte := s.params.frameEsc, txHalf := true }) ∧
        ∀ v : Byte,
          exec (.txEncPlain v) s =
            .next
              (if s.txHalf then
                { s with
                  txStrobe := true, txByte := v ^^^ s.params.escMask, txPos := s.txPos + 1, txHalf := false }
              else { s with txStrobe := true, txByte := v, txPos := s.txPos + 1 })

/-- R160, R161, R163, R168, R172: IDLE does nothing; the three START states restart the timer, arm the edge monitor and
go to their wait; TX_BEGIN starts an attempt. -/
def Obligations.IdleStartsAndAttemptBegin : Prop :=
  ∀ s : State,
    exec .txsIdle s = .next s ∧
      exec .txsSenseStart s =
          .next { s with reqTimerReset := true, reqEdgeArm := true, txState := .senseWait } ∧
        exec .txsBoIdleStart s =
            .next { s with reqTimerReset := true, reqEdgeArm := true, txState := .boIdleWait } ∧
          exec .txsBoCheckStart s =
              .next { s with reqTimerReset := true, reqEdgeArm := true, txState := .boCheckWait } ∧
            exec .txsTxBegin s =
              .next
                { s with
                  checkSending := true, collision := false, echoOk := false, rxMode := .listen, rxIdx := 0
                  rxEsc := false, de := true, txPos := 0, txHalf := false, txState := .txSend }

/-- R162, R169, R173: a wait state does nothing until `oct_flag`; then it disarms the monitor and goes on by whether an
edge was seen. -/
def Obligations.IdleCheckVerdicts : Prop :=
  ∀ s : State,
    exec .txsSenseWait s =
        .next
          (if s.octFlag then
            { s with
              reqEdgeDisarm := true, txState := if s.edgeSeen then TxState.senseStart else TxState.txBegin }
          else s) ∧
      exec .txsBoIdleWait s =
          .next
            (if s.octFlag then
              { s with
                reqEdgeDisarm := true
                txState := if s.edgeSeen then TxState.boIdleStart else TxState.boRandStart }
            else s) ∧
        exec .txsBoCheckWait s =
          .next
            (if s.octFlag then
              { s with
                reqEdgeDisarm := true
                txState := if s.edgeSeen then TxState.boRandStart else TxState.senseStart }
            else s)

/-- R174: a flagged collision ends the attempt in TX_SEND, TX_DRAIN and ECHO_WAIT alike: the driver is released, SELF
checking ends, `bo` goes up to BO_MAX at most, the collision is not counted again, and no byte is strobed. -/
def Obligations.FlaggedCollisionEndsTheAttempt : Prop :=
  ∀ (s : State) (i : Instr), s.collision = true → i = .txsTxSend ∨ i = .txsTxDrain ∨ i = .txsEchoWait →
    exec i s =
      .next
        { s with
          de := false, checkSending := false
          rxMode := if s.rxMode = RxMode.self then RxMode.listen else s.rxMode
          bo := BitVec.ofNat 4 (min (s.bo.toNat + 1) s.params.boMax)
          txState := .boIdleStart }

/-- R164, R127: without a collision TX_SEND waits for the UART; when it is ready it hands over the SYNC at position 0,
else the next wire byte of the logical byte at `tx_pos` - 1, and goes to TX_DRAIN after the last one. -/
def Obligations.SendHandsOverOneByte : Prop :=
  ∀ s : State, s.collision = false →
    (s.inp.uartReady = false → exec .txsTxSend s = .next s) ∧
      (s.inp.uartReady = true → s.txPos = 0 →
        exec .txsTxSend s = .next { s with txStrobe := true, txByte := s.params.frameSync, txPos := 1 }) ∧
        ∀ v : Byte, s.inp.uartReady = true → s.txPos ≠ 0 →
          (logicalFrame s.txbuf s.txcrc)[s.txPos.toNat - 1]? = some v →
            exec .txsTxSend s =
              .next
                (if s.txHalf then
                  { s with
                    txStrobe := true, txByte := v ^^^ s.params.escMask, txPos := s.txPos + 1, txHalf := false
                    txState := if s.txPos = 18 then .txDrain else s.txState }
                else if v = s.params.frameSync ∨ v = s.params.frameEsc then
                  { s with txStrobe := true, txByte := s.params.frameEsc, txHalf := true }
                else
                  { s with
                    txStrobe := true, txByte := v, txPos := s.txPos + 1
                    txState := if s.txPos = 18 then .txDrain else s.txState })

/-- The one way the sequencer stops: TX_SEND asked for a byte past the frame, which `next_wire` does not have (R127,
R128); the model's choice, log 8. No state that meets the invariant has it. -/
def Obligations.ByteBeyondTheFrameIsStuck : Prop :=
  ∀ s : State, s.txState = .txSend → s.collision = false → s.inp.uartReady = true → 18 < s.txPos.toNat →
    exec .txsTxSend s = .fault .encoderPastFrame ∧ ¬Inv s

/-- R127, R128: TX_SEND, run once per wire byte from `tx_pos` = 0, hands over exactly FRAME_SYNC and then every logical
byte stuffed, and ends in TX_DRAIN with `tx_pos` = TX_LAST_POS. -/
def Obligations.SendHandsOverTheWireFrame : Prop :=
  ∀ s : State, s.txState = .txSend → s.txPos = 0 → s.txHalf = false → s.collision = false → s.inp.uartReady = true →
    ∃ t : State,
      sendRun (wireFrame s.params s.txbuf s.txcrc).length s = some (wireFrame s.params s.txbuf s.txcrc, t) ∧
        t.txState = .txDrain ∧ t.txPos = 19 ∧ t.txHalf = false ∧ t.txbuf = s.txbuf ∧ t.txcrc = s.txcrc

/-- R165, R166, R167, R174, R175: ECHO_START restarts the timer and the timeout; TX_DRAIN releases the driver once the
UART is empty; ECHO_WAIT tests the collision first, then the confirmation, then counts octet-times, and the
ECHO_TIMEOUT-th is a collision that it counts itself. -/
def Obligations.DrainAndEchoStates : Prop :=
  ∀ s : State,
    exec .txsEchoStart s = .next { s with reqTimerReset := true, echoTmo := 0, txState := .echoWait } ∧
      exec .txsTxDrain s =
          .next
            (if s.collision then
              { s with
                de := false, checkSending := false
                rxMode := if s.rxMode = RxMode.self then RxMode.listen else s.rxMode
                bo := BitVec.ofNat 4 (min (s.bo.toNat + 1) s.params.boMax)
                txState := .boIdleStart }
            else if s.inp.uartTxIdle then { s with de := false, txState := .echoStart }
            else s) ∧
        exec .txsEchoWait s =
          .next
            (if s.collision then
              { s with
                de := false, checkSending := false
                rxMode := if s.rxMode = RxMode.self then RxMode.listen else s.rxMode
                bo := BitVec.ofNat 4 (min (s.bo.toNat + 1) s.params.boMax)
                txState := .boIdleStart }
            else if s.echoOk then
              { s with
                checkSending := false
                rxMode := if s.rxMode = RxMode.self then RxMode.listen else s.rxMode
                statSent := incStat s.params s.statSent, txDone := true, txState := .idle }
            else if s.octFlag then
              if (s.echoTmo + 1).toNat = s.params.echoTimeout then
                { s with
                  echoTmo := s.echoTmo + 1, de := false, checkSending := false
                  rxMode := if s.rxMode = RxMode.self then RxMode.listen else s.rxMode
                  bo := BitVec.ofNat 4 (min (s.bo.toNat + 1) s.params.boMax)
                  statColl := incStat s.params s.statColl, txState := .boIdleStart }
              else { s with echoTmo := s.echoTmo + 1, reqTimerReset := true }
            else s)

/-- R170, R176: the backoff draw is 1 + (rnd mod W), `rnd` being RND_W bits, with W = 1, 1, 2, 2, 4, 4, 8, 8, 16 for
`bo` = 0..8, and so lies in 1..W. -/
def Obligations.BackoffDraw : Prop :=
  ∀ s : State, s.bo.toNat ≤ 8 →
    ∃ (w : Nat) (n : BitVec 5),
      [1, 1, 2, 2, 4, 4, 8, 8, 16][s.bo.toNat]? = some w ∧
        n.toNat = 1 + s.inp.rnd.toNat % 2 ^ s.params.rndW % w ∧ 1 ≤ n.toNat ∧ n.toNat ≤ w ∧
          exec .txsBoRandStart s =
            .next { s with boWait := n, reqTimerReset := true, txState := .boRandWait }

/-- R171: the random wait counts one octet-time down and ends at 0. -/
def Obligations.RandomWaitCountsDown : Prop :=
  ∀ s : State,
    exec .txsBoRandWait s =
      .next
        (if s.octFlag then
          if s.boWait = 1 then { s with boWait := 0, txState := .boCheckStart }
          else { s with boWait := s.boWait - 1, reqTimerReset := true }
        else s)

/-! ## Timing monitor -/

/-- R142, R143, R144: the TMR phase restarts, counts or holds the timer, then arms, disarms or watches the line, and
the requests are gone. -/
def Obligations.TimingMonitorStep : Prop :=
  ∀ s : State,
    tmrPhase s =
      { s with
        tmrCnt := if s.reqTimerReset then 0 else if s.tmrCnt < s.params.octetTicks then s.tmrCnt + 1 else s.tmrCnt
        octFlag :=
          if s.reqTimerReset then false
          else if s.tmrCnt < s.params.octetTicks ∧ s.tmrCnt + 1 = s.params.octetTicks then true
          else s.octFlag
        edgeArmed := if s.reqEdgeArm then true else if s.reqEdgeDisarm then false else s.edgeArmed
        edgeSeen :=
          if s.reqEdgeArm then false
          else if s.reqEdgeDisarm then s.edgeSeen
          else if s.edgeArmed ∧ s.inp.rxLine ≠ s.linePrev then true
          else s.edgeSeen
        linePrev :=
          if s.reqEdgeArm then s.inp.rxLine
          else if s.reqEdgeDisarm then s.linePrev
          else if s.edgeArmed then s.inp.rxLine
          else s.linePrev
        reqTimerReset := false, reqEdgeArm := false, reqEdgeDisarm := false }

/-- R142, R146: after a timer reset in one cycle, the count after `n` further TMR phases is n or OCTET_TICKS, and the
flag is up exactly from the OCTET_TICKS-th on. -/
def Obligations.OctetFlagAfterOctetTicks : Prop :=
  ∀ (s : State) (n : Nat), 1 ≤ s.params.octetTicks →
    (tmrPhase^[n + 1] { s with reqTimerReset := true }).tmrCnt = min n s.params.octetTicks ∧
      (tmrPhase^[n + 1] { s with reqTimerReset := true }).octFlag = decide (s.params.octetTicks ≤ n)

/-- R143, R144, R146: once armed, the monitor has seen an edge exactly if some later sample of the line differs from the
sample at arming. -/
def Obligations.EdgeSeenMeansALevelChanged : Prop :=
  ∀ (s : State) (first : Bool) (later : List Bool),
    (watchLine (first :: later) { s with reqEdgeArm := true }).edgeSeen = later.any (fun l => l != first)

/-- R146, R312: an idle check entered with the timer just reset stays in its wait state for OCTET_TICKS steps and leaves
it in the next one, whatever arrives meanwhile, if no reset comes. -/
def Obligations.IdleCheckTakesOctetTicksPlusOne : Prop :=
  ∀ s : State, Inv s → s.txState.checkingIdle = true → s.tmrCnt = 0 → s.params.octetTicks + 1 ≤ s.feed.length →
    (∀ i ∈ s.feed, i.rst = false) →
      (∀ k : Nat, k ≤ s.params.octetTicks → ∃ t : State, core.run k s = .next t ∧ t.txState = s.txState ∧ t.tmrCnt = k) ∧
        ∃ t : State, core.run (s.params.octetTicks + 1) s = .next t ∧ t.txState ≠ s.txState

/-! ## The whole machine -/

/-- R72, R74: a host read in a cycle answers the register word as the previous cycle left it. -/
def Obligations.HostReadSeesThePreviousCycle : Prop :=
  ∀ s t : State, s.inp.rst = false → s.inp.hostEn = true → s.inp.hostWe = false → step s = .next t →
    t.hostRdata = s.registerWord s.inp.hostAddr

/-- R72, R239, R305: a SEND accepted in a cycle runs SENSE_START in that cycle, and the next read of STATUS shows
TX_BUSY and no stale TX_DONE. -/
def Obligations.SendIsVisibleInTheNextCycle : Prop :=
  ∀ s t : State, s.inp.rst = false → s.txState = .idle →
    (∃ rxie txie msgDone txdoneClr : Bool,
      decodeHost (hostTransaction s.inp) = .wrCtrl rxie txie true msgDone txdoneClr) →
      step s = .next t →
        t.txState = .senseWait ∧ t.bo = 0 ∧ t.edgeArmed = true ∧ t.tmrCnt = 0 ∧
          t.statusWord.getLsbD 0 = true ∧ t.statusWord.getLsbD 2 = false

/-- R184, R312: after a SEND accepted in IDLE, on a line that keeps its level, no byte is strobed for OCTET_TICKS + 3
cycles and the SYNC is strobed in the next one, with the line driver on, whatever bytes arrive and whatever else the
host does, if no reset comes and the UART is ready. -/
def Obligations.QuietLineSendStrobesTheSync : Prop :=
  ∀ (s : State) (line : Bool), Inv s → s.txState = .idle → s.params.octetTicks + 4 ≤ s.feed.length →
    (∃ rxie txie msgDone txdoneClr : Bool,
      decodeHost (hostTransaction s.inp) = .wrCtrl rxie txie true msgDone txdoneClr) →
      (∀ i ∈ s.feed, i.rst = false ∧ i.rxLine = line ∧ i.uartReady = true) →
        (∀ k : Nat, 1 ≤ k → k ≤ s.params.octetTicks + 3 → ∃ t : State, core.run k s = .next t ∧ t.txStrobe = false) ∧
          ∃ t : State,
            core.run (s.params.octetTicks + 4) s = .next t ∧ t.txStrobe = true ∧ t.txByte = 0x7E ∧ t.de = true

/-- R306: while a send is running, no cycle but a reset changes TXBUF or TXCRC. -/
def Obligations.OutboundFrameIsStable : Prop :=
  ∀ s t : State, s.inp.rst = false → s.txState ≠ .idle → step s = .next t →
    t.txbuf = s.txbuf ∧ t.txcrc = s.txcrc

/-- R180: no cycle but a reset leaves a send except through Succeed, from ECHO_WAIT with the echo confirmed. -/
def Obligations.OnlySuccessEndsASend : Prop :=
  ∀ s t : State, s.inp.rst = false → s.txState ≠ .idle → step s = .next t → t.txState = .idle →
    s.txState = .echoWait ∧ t.echoOk = true ∧ t.collision = false ∧ t.txDone = true ∧ t.statSent = incStat s.params s.statSent

/-- R211: while a frame is ready and no MSG_DONE comes, a cycle without reset leaves RXBUF, FRAME_READY and STAT_RECV
as they are. -/
def Obligations.MailboxBelongsToTheHost : Prop :=
  ∀ s t : State, Inv s → s.inp.rst = false → s.frameReady = true →
    (∀ rxie txie send txdoneClr : Bool,
      decodeHost (hostTransaction s.inp) ≠ .wrCtrl rxie txie send true txdoneClr) →
      step s = .next t →
        t.rxbuf = s.rxbuf ∧ t.frameReady = true ∧ t.statRecv = s.statRecv

/-- R272: no counter increases by more than 1 in one cycle. -/
def Obligations.CountersStepByAtMostOne : Prop :=
  ∀ s t : State, Inv s → s.inp.rst = false → step s = .next t →
    (t.statSent = s.statSent ∨ t.statSent = s.statSent + 1) ∧
      (t.statRecv = s.statRecv ∨ t.statRecv = s.statRecv + 1) ∧
        (t.statColl = s.statColl ∨ t.statColl = s.statColl + 1) ∧
          (t.statOvf = s.statOvf ∨ t.statOvf = s.statOvf + 1)

/-- R182: a destuffed echo byte that differs from the byte sent at its index sets `collision` and is counted once. It
ends the attempt in the same cycle, or, in an ECHO_START cycle, in the next one if no reset comes, whatever else that
cycle brings; the frame is not counted as sent. -/
def Obligations.EchoMismatchAborts : Prop :=
  ∀ (s : State) (d e : Byte), Inv s → s.inp.rst = false → s.rxMode = .self → s.inp.rxValid = true →
    decodeSymbol s.params s.inp.rxByte s.rxEsc = (.data d, false) →
      (logicalFrame s.txbuf s.txcrc)[s.rxIdx.toNat]? = some e → d ≠ e →
        ∃ t : State,
          step s = .next t ∧ t.collision = true ∧ t.statColl = s.statColl + 1 ∧ t.statSent = s.statSent ∧
            (s.txState ≠ .echoStart → t.txState = .boIdleStart ∧ t.checkSending = false) ∧
              (s.txState = .echoStart →
                t.txState = .echoWait ∧
                  (t.inp.rst = false →
                    ∃ u : State,
                      step t = .next u ∧ u.txState = .boIdleStart ∧ u.checkSending = false ∧
                        u.statSent = s.statSent))
end

