-- ==== Sys2Proof/Laws/State.lean ====
section
/-! SUPPORT. One lemma per field for each named update of the state, true by rfl: what it sets, and that it leaves the
rest. -/

namespace Sys2Proof.Machine

/-! ### answer -/

@[simp] theorem State.answer_txbuf (s : State) (r : HostData) : (s.answer r).txbuf = s.txbuf := rfl
@[simp] theorem State.answer_txcrc (s : State) (r : HostData) : (s.answer r).txcrc = s.txcrc := rfl
@[simp] theorem State.answer_txlen (s : State) (r : HostData) : (s.answer r).txlen = s.txlen := rfl
@[simp] theorem State.answer_rxbuf (s : State) (r : HostData) : (s.answer r).rxbuf = s.rxbuf := rfl
@[simp] theorem State.answer_frameReady (s : State) (r : HostData) : (s.answer r).frameReady = s.frameReady := rfl
@[simp] theorem State.answer_txDone (s : State) (r : HostData) : (s.answer r).txDone = s.txDone := rfl
@[simp] theorem State.answer_rxie (s : State) (r : HostData) : (s.answer r).rxie = s.rxie := rfl
@[simp] theorem State.answer_txie (s : State) (r : HostData) : (s.answer r).txie = s.txie := rfl
@[simp] theorem State.answer_statSent (s : State) (r : HostData) : (s.answer r).statSent = s.statSent := rfl
@[simp] theorem State.answer_statRecv (s : State) (r : HostData) : (s.answer r).statRecv = s.statRecv := rfl
@[simp] theorem State.answer_statColl (s : State) (r : HostData) : (s.answer r).statColl = s.statColl := rfl
@[simp] theorem State.answer_statOvf (s : State) (r : HostData) : (s.answer r).statOvf = s.statOvf := rfl
@[simp] theorem State.answer_txState (s : State) (r : HostData) : (s.answer r).txState = s.txState := rfl
@[simp] theorem State.answer_txPos (s : State) (r : HostData) : (s.answer r).txPos = s.txPos := rfl
@[simp] theorem State.answer_txHalf (s : State) (r : HostData) : (s.answer r).txHalf = s.txHalf := rfl
@[simp] theorem State.answer_bo (s : State) (r : HostData) : (s.answer r).bo = s.bo := rfl
@[simp] theorem State.answer_boWait (s : State) (r : HostData) : (s.answer r).boWait = s.boWait := rfl
@[simp] theorem State.answer_echoTmo (s : State) (r : HostData) : (s.answer r).echoTmo = s.echoTmo := rfl
@[simp] theorem State.answer_checkSending (s : State) (r : HostData) : (s.answer r).checkSending = s.checkSending := rfl
@[simp] theorem State.answer_collision (s : State) (r : HostData) : (s.answer r).collision = s.collision := rfl
@[simp] theorem State.answer_echoOk (s : State) (r : HostData) : (s.answer r).echoOk = s.echoOk := rfl
@[simp] theorem State.answer_de (s : State) (r : HostData) : (s.answer r).de = s.de := rfl
@[simp] theorem State.answer_rxMode (s : State) (r : HostData) : (s.answer r).rxMode = s.rxMode := rfl
@[simp] theorem State.answer_rxIdx (s : State) (r : HostData) : (s.answer r).rxIdx = s.rxIdx := rfl
@[simp] theorem State.answer_rxEsc (s : State) (r : HostData) : (s.answer r).rxEsc = s.rxEsc := rfl
@[simp] theorem State.answer_rxCrc (s : State) (r : HostData) : (s.answer r).rxCrc = s.rxCrc := rfl
@[simp] theorem State.answer_rxCrchi (s : State) (r : HostData) : (s.answer r).rxCrchi = s.rxCrchi := rfl
@[simp] theorem State.answer_tmrCnt (s : State) (r : HostData) : (s.answer r).tmrCnt = s.tmrCnt := rfl
@[simp] theorem State.answer_octFlag (s : State) (r : HostData) : (s.answer r).octFlag = s.octFlag := rfl
@[simp] theorem State.answer_edgeArmed (s : State) (r : HostData) : (s.answer r).edgeArmed = s.edgeArmed := rfl
@[simp] theorem State.answer_edgeSeen (s : State) (r : HostData) : (s.answer r).edgeSeen = s.edgeSeen := rfl
@[simp] theorem State.answer_linePrev (s : State) (r : HostData) : (s.answer r).linePrev = s.linePrev := rfl
@[simp] theorem State.answer_hostRdata (s : State) (r : HostData) : (s.answer r).hostRdata = r := rfl
@[simp] theorem State.answer_txStrobe (s : State) (r : HostData) : (s.answer r).txStrobe = s.txStrobe := rfl
@[simp] theorem State.answer_txByte (s : State) (r : HostData) : (s.answer r).txByte = s.txByte := rfl
@[simp] theorem State.answer_reqTimerReset (s : State) (r : HostData) : (s.answer r).reqTimerReset = s.reqTimerReset := rfl
@[simp] theorem State.answer_reqEdgeArm (s : State) (r : HostData) : (s.answer r).reqEdgeArm = s.reqEdgeArm := rfl
@[simp] theorem State.answer_reqEdgeDisarm (s : State) (r : HostData) : (s.answer r).reqEdgeDisarm = s.reqEdgeDisarm := rfl
@[simp] theorem State.answer_params (s : State) (r : HostData) : (s.answer r).params = s.params := rfl
@[simp] theorem State.answer_feed (s : State) (r : HostData) : (s.answer r).feed = s.feed := rfl
@[simp] theorem State.answer_draws (s : State) (r : HostData) : (s.answer r).draws = s.draws := rfl
@[simp] theorem State.answer_inp (s : State) (r : HostData) : (s.answer r).inp = s.inp := rfl

/-! ### strobe -/

@[simp] theorem State.strobe_txbuf (s : State) (w : Byte) : (s.strobe w).txbuf = s.txbuf := rfl
@[simp] theorem State.strobe_txcrc (s : State) (w : Byte) : (s.strobe w).txcrc = s.txcrc := rfl
@[simp] theorem State.strobe_txlen (s : State) (w : Byte) : (s.strobe w).txlen = s.txlen := rfl
@[simp] theorem State.strobe_rxbuf (s : State) (w : Byte) : (s.strobe w).rxbuf = s.rxbuf := rfl
@[simp] theorem State.strobe_frameReady (s : State) (w : Byte) : (s.strobe w).frameReady = s.frameReady := rfl
@[simp] theorem State.strobe_txDone (s : State) (w : Byte) : (s.strobe w).txDone = s.txDone := rfl
@[simp] theorem State.strobe_rxie (s : State) (w : Byte) : (s.strobe w).rxie = s.rxie := rfl
@[simp] theorem State.strobe_txie (s : State) (w : Byte) : (s.strobe w).txie = s.txie := rfl
@[simp] theorem State.strobe_statSent (s : State) (w : Byte) : (s.strobe w).statSent = s.statSent := rfl
@[simp] theorem State.strobe_statRecv (s : State) (w : Byte) : (s.strobe w).statRecv = s.statRecv := rfl
@[simp] theorem State.strobe_statColl (s : State) (w : Byte) : (s.strobe w).statColl = s.statColl := rfl
@[simp] theorem State.strobe_statOvf (s : State) (w : Byte) : (s.strobe w).statOvf = s.statOvf := rfl
@[simp] theorem State.strobe_txState (s : State) (w : Byte) : (s.strobe w).txState = s.txState := rfl
@[simp] theorem State.strobe_txPos (s : State) (w : Byte) : (s.strobe w).txPos = s.txPos := rfl
@[simp] theorem State.strobe_txHalf (s : State) (w : Byte) : (s.strobe w).txHalf = s.txHalf := rfl
@[simp] theorem State.strobe_bo (s : State) (w : Byte) : (s.strobe w).bo = s.bo := rfl
@[simp] theorem State.strobe_boWait (s : State) (w : Byte) : (s.strobe w).boWait = s.boWait := rfl
@[simp] theorem State.strobe_echoTmo (s : State) (w : Byte) : (s.strobe w).echoTmo = s.echoTmo := rfl
@[simp] theorem State.strobe_checkSending (s : State) (w : Byte) : (s.strobe w).checkSending = s.checkSending := rfl
@[simp] theorem State.strobe_collision (s : State) (w : Byte) : (s.strobe w).collision = s.collision := rfl
@[simp] theorem State.strobe_echoOk (s : State) (w : Byte) : (s.strobe w).echoOk = s.echoOk := rfl
@[simp] theorem State.strobe_de (s : State) (w : Byte) : (s.strobe w).de = s.de := rfl
@[simp] theorem State.strobe_rxMode (s : State) (w : Byte) : (s.strobe w).rxMode = s.rxMode := rfl
@[simp] theorem State.strobe_rxIdx (s : State) (w : Byte) : (s.strobe w).rxIdx = s.rxIdx := rfl
@[simp] theorem State.strobe_rxEsc (s : State) (w : Byte) : (s.strobe w).rxEsc = s.rxEsc := rfl
@[simp] theorem State.strobe_rxCrc (s : State) (w : Byte) : (s.strobe w).rxCrc = s.rxCrc := rfl
@[simp] theorem State.strobe_rxCrchi (s : State) (w : Byte) : (s.strobe w).rxCrchi = s.rxCrchi := rfl
@[simp] theorem State.strobe_tmrCnt (s : State) (w : Byte) : (s.strobe w).tmrCnt = s.tmrCnt := rfl
@[simp] theorem State.strobe_octFlag (s : State) (w : Byte) : (s.strobe w).octFlag = s.octFlag := rfl
@[simp] theorem State.strobe_edgeArmed (s : State) (w : Byte) : (s.strobe w).edgeArmed = s.edgeArmed := rfl
@[simp] theorem State.strobe_edgeSeen (s : State) (w : Byte) : (s.strobe w).edgeSeen = s.edgeSeen := rfl
@[simp] theorem State.strobe_linePrev (s : State) (w : Byte) : (s.strobe w).linePrev = s.linePrev := rfl
@[simp] theorem State.strobe_hostRdata (s : State) (w : Byte) : (s.strobe w).hostRdata = s.hostRdata := rfl
@[simp] theorem State.strobe_txStrobe (s : State) (w : Byte) : (s.strobe w).txStrobe = true := rfl
@[simp] theorem State.strobe_txByte (s : State) (w : Byte) : (s.strobe w).txByte = w := rfl
@[simp] theorem State.strobe_reqTimerReset (s : State) (w : Byte) : (s.strobe w).reqTimerReset = s.reqTimerReset := rfl
@[simp] theorem State.strobe_reqEdgeArm (s : State) (w : Byte) : (s.strobe w).reqEdgeArm = s.reqEdgeArm := rfl
@[simp] theorem State.strobe_reqEdgeDisarm (s : State) (w : Byte) : (s.strobe w).reqEdgeDisarm = s.reqEdgeDisarm := rfl
@[simp] theorem State.strobe_params (s : State) (w : Byte) : (s.strobe w).params = s.params := rfl
@[simp] theorem State.strobe_feed (s : State) (w : Byte) : (s.strobe w).feed = s.feed := rfl
@[simp] theorem State.strobe_draws (s : State) (w : Byte) : (s.strobe w).draws = s.draws := rfl
@[simp] theorem State.strobe_inp (s : State) (w : Byte) : (s.strobe w).inp = s.inp := rfl

/-! ### clearTxWires -/

@[simp] theorem State.clearTxWires_txbuf (s : State) : s.clearTxWires.txbuf = s.txbuf := rfl
@[simp] theorem State.clearTxWires_txcrc (s : State) : s.clearTxWires.txcrc = s.txcrc := rfl
@[simp] theorem State.clearTxWires_txlen (s : State) : s.clearTxWires.txlen = s.txlen := rfl
@[simp] theorem State.clearTxWires_rxbuf (s : State) : s.clearTxWires.rxbuf = s.rxbuf := rfl
@[simp] theorem State.clearTxWires_frameReady (s : State) : s.clearTxWires.frameReady = s.frameReady := rfl
@[simp] theorem State.clearTxWires_txDone (s : State) : s.clearTxWires.txDone = s.txDone := rfl
@[simp] theorem State.clearTxWires_rxie (s : State) : s.clearTxWires.rxie = s.rxie := rfl
@[simp] theorem State.clearTxWires_txie (s : State) : s.clearTxWires.txie = s.txie := rfl
@[simp] theorem State.clearTxWires_statSent (s : State) : s.clearTxWires.statSent = s.statSent := rfl
@[simp] theorem State.clearTxWires_statRecv (s : State) : s.clearTxWires.statRecv = s.statRecv := rfl
@[simp] theorem State.clearTxWires_statColl (s : State) : s.clearTxWires.statColl = s.statColl := rfl
@[simp] theorem State.clearTxWires_statOvf (s : State) : s.clearTxWires.statOvf = s.statOvf := rfl
@[simp] theorem State.clearTxWires_txState (s : State) : s.clearTxWires.txState = s.txState := rfl
@[simp] theorem State.clearTxWires_txPos (s : State) : s.clearTxWires.txPos = s.txPos := rfl
@[simp] theorem State.clearTxWires_txHalf (s : State) : s.clearTxWires.txHalf = s.txHalf := rfl
@[simp] theorem State.clearTxWires_bo (s : State) : s.clearTxWires.bo = s.bo := rfl
@[simp] theorem State.clearTxWires_boWait (s : State) : s.clearTxWires.boWait = s.boWait := rfl
@[simp] theorem State.clearTxWires_echoTmo (s : State) : s.clearTxWires.echoTmo = s.echoTmo := rfl
@[simp] theorem State.clearTxWires_checkSending (s : State) : s.clearTxWires.checkSending = s.checkSending := rfl
@[simp] theorem State.clearTxWires_collision (s : State) : s.clearTxWires.collision = s.collision := rfl
@[simp] theorem State.clearTxWires_echoOk (s : State) : s.clearTxWires.echoOk = s.echoOk := rfl
@[simp] theorem State.clearTxWires_de (s : State) : s.clearTxWires.de = s.de := rfl
@[simp] theorem State.clearTxWires_rxMode (s : State) : s.clearTxWires.rxMode = s.rxMode := rfl
@[simp] theorem State.clearTxWires_rxIdx (s : State) : s.clearTxWires.rxIdx = s.rxIdx := rfl
@[simp] theorem State.clearTxWires_rxEsc (s : State) : s.clearTxWires.rxEsc = s.rxEsc := rfl
@[simp] theorem State.clearTxWires_rxCrc (s : State) : s.clearTxWires.rxCrc = s.rxCrc := rfl
@[simp] theorem State.clearTxWires_rxCrchi (s : State) : s.clearTxWires.rxCrchi = s.rxCrchi := rfl
@[simp] theorem State.clearTxWires_tmrCnt (s : State) : s.clearTxWires.tmrCnt = s.tmrCnt := rfl
@[simp] theorem State.clearTxWires_octFlag (s : State) : s.clearTxWires.octFlag = s.octFlag := rfl
@[simp] theorem State.clearTxWires_edgeArmed (s : State) : s.clearTxWires.edgeArmed = s.edgeArmed := rfl
@[simp] theorem State.clearTxWires_edgeSeen (s : State) : s.clearTxWires.edgeSeen = s.edgeSeen := rfl
@[simp] theorem State.clearTxWires_linePrev (s : State) : s.clearTxWires.linePrev = s.linePrev := rfl
@[simp] theorem State.clearTxWires_hostRdata (s : State) : s.clearTxWires.hostRdata = s.hostRdata := rfl
@[simp] theorem State.clearTxWires_txStrobe (s : State) : s.clearTxWires.txStrobe = false := rfl
@[simp] theorem State.clearTxWires_txByte (s : State) : s.clearTxWires.txByte = 0 := rfl
@[simp] theorem State.clearTxWires_reqTimerReset (s : State) : s.clearTxWires.reqTimerReset = false := rfl
@[simp] theorem State.clearTxWires_reqEdgeArm (s : State) : s.clearTxWires.reqEdgeArm = false := rfl
@[simp] theorem State.clearTxWires_reqEdgeDisarm (s : State) : s.clearTxWires.reqEdgeDisarm = false := rfl
@[simp] theorem State.clearTxWires_params (s : State) : s.clearTxWires.params = s.params := rfl
@[simp] theorem State.clearTxWires_feed (s : State) : s.clearTxWires.feed = s.feed := rfl
@[simp] theorem State.clearTxWires_draws (s : State) : s.clearTxWires.draws = s.draws := rfl
@[simp] theorem State.clearTxWires_inp (s : State) : s.clearTxWires.inp = s.inp := rfl

/-! ### dropRequests -/

@[simp] theorem State.dropRequests_txbuf (s : State) : s.dropRequests.txbuf = s.txbuf := rfl
@[simp] theorem State.dropRequests_txcrc (s : State) : s.dropRequests.txcrc = s.txcrc := rfl
@[simp] theorem State.dropRequests_txlen (s : State) : s.dropRequests.txlen = s.txlen := rfl
@[simp] theorem State.dropRequests_rxbuf (s : State) : s.dropRequests.rxbuf = s.rxbuf := rfl
@[simp] theorem State.dropRequests_frameReady (s : State) : s.dropRequests.frameReady = s.frameReady := rfl
@[simp] theorem State.dropRequests_txDone (s : State) : s.dropRequests.txDone = s.txDone := rfl
@[simp] theorem State.dropRequests_rxie (s : State) : s.dropRequests.rxie = s.rxie := rfl
@[simp] theorem State.dropRequests_txie (s : State) : s.dropRequests.txie = s.txie := rfl
@[simp] theorem State.dropRequests_statSent (s : State) : s.dropRequests.statSent = s.statSent := rfl
@[simp] theorem State.dropRequests_statRecv (s : State) : s.dropRequests.statRecv = s.statRecv := rfl
@[simp] theorem State.dropRequests_statColl (s : State) : s.dropRequests.statColl = s.statColl := rfl
@[simp] theorem State.dropRequests_statOvf (s : State) : s.dropRequests.statOvf = s.statOvf := rfl
@[simp] theorem State.dropRequests_txState (s : State) : s.dropRequests.txState = s.txState := rfl
@[simp] theorem State.dropRequests_txPos (s : State) : s.dropRequests.txPos = s.txPos := rfl
@[simp] theorem State.dropRequests_txHalf (s : State) : s.dropRequests.txHalf = s.txHalf := rfl
@[simp] theorem State.dropRequests_bo (s : State) : s.dropRequests.bo = s.bo := rfl
@[simp] theorem State.dropRequests_boWait (s : State) : s.dropRequests.boWait = s.boWait := rfl
@[simp] theorem State.dropRequests_echoTmo (s : State) : s.dropRequests.echoTmo = s.echoTmo := rfl
@[simp] theorem State.dropRequests_checkSending (s : State) : s.dropRequests.checkSending = s.checkSending := rfl
@[simp] theorem State.dropRequests_collision (s : State) : s.dropRequests.collision = s.collision := rfl
@[simp] theorem State.dropRequests_echoOk (s : State) : s.dropRequests.echoOk = s.echoOk := rfl
@[simp] theorem State.dropRequests_de (s : State) : s.dropRequests.de = s.de := rfl
@[simp] theorem State.dropRequests_rxMode (s : State) : s.dropRequests.rxMode = s.rxMode := rfl
@[simp] theorem State.dropRequests_rxIdx (s : State) : s.dropRequests.rxIdx = s.rxIdx := rfl
@[simp] theorem State.dropRequests_rxEsc (s : State) : s.dropRequests.rxEsc = s.rxEsc := rfl
@[simp] theorem State.dropRequests_rxCrc (s : State) : s.dropRequests.rxCrc = s.rxCrc := rfl
@[simp] theorem State.dropRequests_rxCrchi (s : State) : s.dropRequests.rxCrchi = s.rxCrchi := rfl
@[simp] theorem State.dropRequests_tmrCnt (s : State) : s.dropRequests.tmrCnt = s.tmrCnt := rfl
@[simp] theorem State.dropRequests_octFlag (s : State) : s.dropRequests.octFlag = s.octFlag := rfl
@[simp] theorem State.dropRequests_edgeArmed (s : State) : s.dropRequests.edgeArmed = s.edgeArmed := rfl
@[simp] theorem State.dropRequests_edgeSeen (s : State) : s.dropRequests.edgeSeen = s.edgeSeen := rfl
@[simp] theorem State.dropRequests_linePrev (s : State) : s.dropRequests.linePrev = s.linePrev := rfl
@[simp] theorem State.dropRequests_hostRdata (s : State) : s.dropRequests.hostRdata = s.hostRdata := rfl
@[simp] theorem State.dropRequests_txStrobe (s : State) : s.dropRequests.txStrobe = s.txStrobe := rfl
@[simp] theorem State.dropRequests_txByte (s : State) : s.dropRequests.txByte = s.txByte := rfl
@[simp] theorem State.dropRequests_reqTimerReset (s : State) : s.dropRequests.reqTimerReset = false := rfl
@[simp] theorem State.dropRequests_reqEdgeArm (s : State) : s.dropRequests.reqEdgeArm = false := rfl
@[simp] theorem State.dropRequests_reqEdgeDisarm (s : State) : s.dropRequests.reqEdgeDisarm = false := rfl
@[simp] theorem State.dropRequests_params (s : State) : s.dropRequests.params = s.params := rfl
@[simp] theorem State.dropRequests_feed (s : State) : s.dropRequests.feed = s.feed := rfl
@[simp] theorem State.dropRequests_draws (s : State) : s.dropRequests.draws = s.draws := rfl
@[simp] theorem State.dropRequests_inp (s : State) : s.dropRequests.inp = s.inp := rfl

/-! ### requestTimerReset -/

@[simp] theorem State.requestTimerReset_txbuf (s : State) : s.requestTimerReset.txbuf = s.txbuf := rfl
@[simp] theorem State.requestTimerReset_txcrc (s : State) : s.requestTimerReset.txcrc = s.txcrc := rfl
@[simp] theorem State.requestTimerReset_txlen (s : State) : s.requestTimerReset.txlen = s.txlen := rfl
@[simp] theorem State.requestTimerReset_rxbuf (s : State) : s.requestTimerReset.rxbuf = s.rxbuf := rfl
@[simp] theorem State.requestTimerReset_frameReady (s : State) : s.requestTimerReset.frameReady = s.frameReady := rfl
@[simp] theorem State.requestTimerReset_txDone (s : State) : s.requestTimerReset.txDone = s.txDone := rfl
@[simp] theorem State.requestTimerReset_rxie (s : State) : s.requestTimerReset.rxie = s.rxie := rfl
@[simp] theorem State.requestTimerReset_txie (s : State) : s.requestTimerReset.txie = s.txie := rfl
@[simp] theorem State.requestTimerReset_statSent (s : State) : s.requestTimerReset.statSent = s.statSent := rfl
@[simp] theorem State.requestTimerReset_statRecv (s : State) : s.requestTimerReset.statRecv = s.statRecv := rfl
@[simp] theorem State.requestTimerReset_statColl (s : State) : s.requestTimerReset.statColl = s.statColl := rfl
@[simp] theorem State.requestTimerReset_statOvf (s : State) : s.requestTimerReset.statOvf = s.statOvf := rfl
@[simp] theorem State.requestTimerReset_txState (s : State) : s.requestTimerReset.txState = s.txState := rfl
@[simp] theorem State.requestTimerReset_txPos (s : State) : s.requestTimerReset.txPos = s.txPos := rfl
@[simp] theorem State.requestTimerReset_txHalf (s : State) : s.requestTimerReset.txHalf = s.txHalf := rfl
@[simp] theorem State.requestTimerReset_bo (s : State) : s.requestTimerReset.bo = s.bo := rfl
@[simp] theorem State.requestTimerReset_boWait (s : State) : s.requestTimerReset.boWait = s.boWait := rfl
@[simp] theorem State.requestTimerReset_echoTmo (s : State) : s.requestTimerReset.echoTmo = s.echoTmo := rfl
@[simp] theorem State.requestTimerReset_checkSending (s : State) : s.requestTimerReset.checkSending = s.checkSending := rfl
@[simp] theorem State.requestTimerReset_collision (s : State) : s.requestTimerReset.collision = s.collision := rfl
@[simp] theorem State.requestTimerReset_echoOk (s : State) : s.requestTimerReset.echoOk = s.echoOk := rfl
@[simp] theorem State.requestTimerReset_de (s : State) : s.requestTimerReset.de = s.de := rfl
@[simp] theorem State.requestTimerReset_rxMode (s : State) : s.requestTimerReset.rxMode = s.rxMode := rfl
@[simp] theorem State.requestTimerReset_rxIdx (s : State) : s.requestTimerReset.rxIdx = s.rxIdx := rfl
@[simp] theorem State.requestTimerReset_rxEsc (s : State) : s.requestTimerReset.rxEsc = s.rxEsc := rfl
@[simp] theorem State.requestTimerReset_rxCrc (s : State) : s.requestTimerReset.rxCrc = s.rxCrc := rfl
@[simp] theorem State.requestTimerReset_rxCrchi (s : State) : s.requestTimerReset.rxCrchi = s.rxCrchi := rfl
@[simp] theorem State.requestTimerReset_tmrCnt (s : State) : s.requestTimerReset.tmrCnt = s.tmrCnt := rfl
@[simp] theorem State.requestTimerReset_octFlag (s : State) : s.requestTimerReset.octFlag = s.octFlag := rfl
@[simp] theorem State.requestTimerReset_edgeArmed (s : State) : s.requestTimerReset.edgeArmed = s.edgeArmed := rfl
@[simp] theorem State.requestTimerReset_edgeSeen (s : State) : s.requestTimerReset.edgeSeen = s.edgeSeen := rfl
@[simp] theorem State.requestTimerReset_linePrev (s : State) : s.requestTimerReset.linePrev = s.linePrev := rfl
@[simp] theorem State.requestTimerReset_hostRdata (s : State) : s.requestTimerReset.hostRdata = s.hostRdata := rfl
@[simp] theorem State.requestTimerReset_txStrobe (s : State) : s.requestTimerReset.txStrobe = s.txStrobe := rfl
@[simp] theorem State.requestTimerReset_txByte (s : State) : s.requestTimerReset.txByte = s.txByte := rfl
@[simp] theorem State.requestTimerReset_reqTimerReset (s : State) : s.requestTimerReset.reqTimerReset = true := rfl
@[simp] theorem State.requestTimerReset_reqEdgeArm (s : State) : s.requestTimerReset.reqEdgeArm = s.reqEdgeArm := rfl
@[simp] theorem State.requestTimerReset_reqEdgeDisarm (s : State) : s.requestTimerReset.reqEdgeDisarm = s.reqEdgeDisarm := rfl
@[simp] theorem State.requestTimerReset_params (s : State) : s.requestTimerReset.params = s.params := rfl
@[simp] theorem State.requestTimerReset_feed (s : State) : s.requestTimerReset.feed = s.feed := rfl
@[simp] theorem State.requestTimerReset_draws (s : State) : s.requestTimerReset.draws = s.draws := rfl
@[simp] theorem State.requestTimerReset_inp (s : State) : s.requestTimerReset.inp = s.inp := rfl

/-! ### requestEdgeArm -/

@[simp] theorem State.requestEdgeArm_txbuf (s : State) : s.requestEdgeArm.txbuf = s.txbuf := rfl
@[simp] theorem State.requestEdgeArm_txcrc (s : State) : s.requestEdgeArm.txcrc = s.txcrc := rfl
@[simp] theorem State.requestEdgeArm_txlen (s : State) : s.requestEdgeArm.txlen = s.txlen := rfl
@[simp] theorem State.requestEdgeArm_rxbuf (s : State) : s.requestEdgeArm.rxbuf = s.rxbuf := rfl
@[simp] theorem State.requestEdgeArm_frameReady (s : State) : s.requestEdgeArm.frameReady = s.frameReady := rfl
@[simp] theorem State.requestEdgeArm_txDone (s : State) : s.requestEdgeArm.txDone = s.txDone := rfl
@[simp] theorem State.requestEdgeArm_rxie (s : State) : s.requestEdgeArm.rxie = s.rxie := rfl
@[simp] theorem State.requestEdgeArm_txie (s : State) : s.requestEdgeArm.txie = s.txie := rfl
@[simp] theorem State.requestEdgeArm_statSent (s : State) : s.requestEdgeArm.statSent = s.statSent := rfl
@[simp] theorem State.requestEdgeArm_statRecv (s : State) : s.requestEdgeArm.statRecv = s.statRecv := rfl
@[simp] theorem State.requestEdgeArm_statColl (s : State) : s.requestEdgeArm.statColl = s.statColl := rfl
@[simp] theorem State.requestEdgeArm_statOvf (s : State) : s.requestEdgeArm.statOvf = s.statOvf := rfl
@[simp] theorem State.requestEdgeArm_txState (s : State) : s.requestEdgeArm.txState = s.txState := rfl
@[simp] theorem State.requestEdgeArm_txPos (s : State) : s.requestEdgeArm.txPos = s.txPos := rfl
@[simp] theorem State.requestEdgeArm_txHalf (s : State) : s.requestEdgeArm.txHalf = s.txHalf := rfl
@[simp] theorem State.requestEdgeArm_bo (s : State) : s.requestEdgeArm.bo = s.bo := rfl
@[simp] theorem State.requestEdgeArm_boWait (s : State) : s.requestEdgeArm.boWait = s.boWait := rfl
@[simp] theorem State.requestEdgeArm_echoTmo (s : State) : s.requestEdgeArm.echoTmo = s.echoTmo := rfl
@[simp] theorem State.requestEdgeArm_checkSending (s : State) : s.requestEdgeArm.checkSending = s.checkSending := rfl
@[simp] theorem State.requestEdgeArm_collision (s : State) : s.requestEdgeArm.collision = s.collision := rfl
@[simp] theorem State.requestEdgeArm_echoOk (s : State) : s.requestEdgeArm.echoOk = s.echoOk := rfl
@[simp] theorem State.requestEdgeArm_de (s : State) : s.requestEdgeArm.de = s.de := rfl
@[simp] theorem State.requestEdgeArm_rxMode (s : State) : s.requestEdgeArm.rxMode = s.rxMode := rfl
@[simp] theorem State.requestEdgeArm_rxIdx (s : State) : s.requestEdgeArm.rxIdx = s.rxIdx := rfl
@[simp] theorem State.requestEdgeArm_rxEsc (s : State) : s.requestEdgeArm.rxEsc = s.rxEsc := rfl
@[simp] theorem State.requestEdgeArm_rxCrc (s : State) : s.requestEdgeArm.rxCrc = s.rxCrc := rfl
@[simp] theorem State.requestEdgeArm_rxCrchi (s : State) : s.requestEdgeArm.rxCrchi = s.rxCrchi := rfl
@[simp] theorem State.requestEdgeArm_tmrCnt (s : State) : s.requestEdgeArm.tmrCnt = s.tmrCnt := rfl
@[simp] theorem State.requestEdgeArm_octFlag (s : State) : s.requestEdgeArm.octFlag = s.octFlag := rfl
@[simp] theorem State.requestEdgeArm_edgeArmed (s : State) : s.requestEdgeArm.edgeArmed = s.edgeArmed := rfl
@[simp] theorem State.requestEdgeArm_edgeSeen (s : State) : s.requestEdgeArm.edgeSeen = s.edgeSeen := rfl
@[simp] theorem State.requestEdgeArm_linePrev (s : State) : s.requestEdgeArm.linePrev = s.linePrev := rfl
@[simp] theorem State.requestEdgeArm_hostRdata (s : State) : s.requestEdgeArm.hostRdata = s.hostRdata := rfl
@[simp] theorem State.requestEdgeArm_txStrobe (s : State) : s.requestEdgeArm.txStrobe = s.txStrobe := rfl
@[simp] theorem State.requestEdgeArm_txByte (s : State) : s.requestEdgeArm.txByte = s.txByte := rfl
@[simp] theorem State.requestEdgeArm_reqTimerReset (s : State) : s.requestEdgeArm.reqTimerReset = s.reqTimerReset := rfl
@[simp] theorem State.requestEdgeArm_reqEdgeArm (s : State) : s.requestEdgeArm.reqEdgeArm = true := rfl
@[simp] theorem State.requestEdgeArm_reqEdgeDisarm (s : State) : s.requestEdgeArm.reqEdgeDisarm = s.reqEdgeDisarm := rfl
@[simp] theorem State.requestEdgeArm_params (s : State) : s.requestEdgeArm.params = s.params := rfl
@[simp] theorem State.requestEdgeArm_feed (s : State) : s.requestEdgeArm.feed = s.feed := rfl
@[simp] theorem State.requestEdgeArm_draws (s : State) : s.requestEdgeArm.draws = s.draws := rfl
@[simp] theorem State.requestEdgeArm_inp (s : State) : s.requestEdgeArm.inp = s.inp := rfl

/-! ### requestEdgeDisarm -/

@[simp] theorem State.requestEdgeDisarm_txbuf (s : State) : s.requestEdgeDisarm.txbuf = s.txbuf := rfl
@[simp] theorem State.requestEdgeDisarm_txcrc (s : State) : s.requestEdgeDisarm.txcrc = s.txcrc := rfl
@[simp] theorem State.requestEdgeDisarm_txlen (s : State) : s.requestEdgeDisarm.txlen = s.txlen := rfl
@[simp] theorem State.requestEdgeDisarm_rxbuf (s : State) : s.requestEdgeDisarm.rxbuf = s.rxbuf := rfl
@[simp] theorem State.requestEdgeDisarm_frameReady (s : State) : s.requestEdgeDisarm.frameReady = s.frameReady := rfl
@[simp] theorem State.requestEdgeDisarm_txDone (s : State) : s.requestEdgeDisarm.txDone = s.txDone := rfl
@[simp] theorem State.requestEdgeDisarm_rxie (s : State) : s.requestEdgeDisarm.rxie = s.rxie := rfl
@[simp] theorem State.requestEdgeDisarm_txie (s : State) : s.requestEdgeDisarm.txie = s.txie := rfl
@[simp] theorem State.requestEdgeDisarm_statSent (s : State) : s.requestEdgeDisarm.statSent = s.statSent := rfl
@[simp] theorem State.requestEdgeDisarm_statRecv (s : State) : s.requestEdgeDisarm.statRecv = s.statRecv := rfl
@[simp] theorem State.requestEdgeDisarm_statColl (s : State) : s.requestEdgeDisarm.statColl = s.statColl := rfl
@[simp] theorem State.requestEdgeDisarm_statOvf (s : State) : s.requestEdgeDisarm.statOvf = s.statOvf := rfl
@[simp] theorem State.requestEdgeDisarm_txState (s : State) : s.requestEdgeDisarm.txState = s.txState := rfl
@[simp] theorem State.requestEdgeDisarm_txPos (s : State) : s.requestEdgeDisarm.txPos = s.txPos := rfl
@[simp] theorem State.requestEdgeDisarm_txHalf (s : State) : s.requestEdgeDisarm.txHalf = s.txHalf := rfl
@[simp] theorem State.requestEdgeDisarm_bo (s : State) : s.requestEdgeDisarm.bo = s.bo := rfl
@[simp] theorem State.requestEdgeDisarm_boWait (s : State) : s.requestEdgeDisarm.boWait = s.boWait := rfl
@[simp] theorem State.requestEdgeDisarm_echoTmo (s : State) : s.requestEdgeDisarm.echoTmo = s.echoTmo := rfl
@[simp] theorem State.requestEdgeDisarm_checkSending (s : State) : s.requestEdgeDisarm.checkSending = s.checkSending := rfl
@[simp] theorem State.requestEdgeDisarm_collision (s : State) : s.requestEdgeDisarm.collision = s.collision := rfl
@[simp] theorem State.requestEdgeDisarm_echoOk (s : State) : s.requestEdgeDisarm.echoOk = s.echoOk := rfl
@[simp] theorem State.requestEdgeDisarm_de (s : State) : s.requestEdgeDisarm.de = s.de := rfl
@[simp] theorem State.requestEdgeDisarm_rxMode (s : State) : s.requestEdgeDisarm.rxMode = s.rxMode := rfl
@[simp] theorem State.requestEdgeDisarm_rxIdx (s : State) : s.requestEdgeDisarm.rxIdx = s.rxIdx := rfl
@[simp] theorem State.requestEdgeDisarm_rxEsc (s : State) : s.requestEdgeDisarm.rxEsc = s.rxEsc := rfl
@[simp] theorem State.requestEdgeDisarm_rxCrc (s : State) : s.requestEdgeDisarm.rxCrc = s.rxCrc := rfl
@[simp] theorem State.requestEdgeDisarm_rxCrchi (s : State) : s.requestEdgeDisarm.rxCrchi = s.rxCrchi := rfl
@[simp] theorem State.requestEdgeDisarm_tmrCnt (s : State) : s.requestEdgeDisarm.tmrCnt = s.tmrCnt := rfl
@[simp] theorem State.requestEdgeDisarm_octFlag (s : State) : s.requestEdgeDisarm.octFlag = s.octFlag := rfl
@[simp] theorem State.requestEdgeDisarm_edgeArmed (s : State) : s.requestEdgeDisarm.edgeArmed = s.edgeArmed := rfl
@[simp] theorem State.requestEdgeDisarm_edgeSeen (s : State) : s.requestEdgeDisarm.edgeSeen = s.edgeSeen := rfl
@[simp] theorem State.requestEdgeDisarm_linePrev (s : State) : s.requestEdgeDisarm.linePrev = s.linePrev := rfl
@[simp] theorem State.requestEdgeDisarm_hostRdata (s : State) : s.requestEdgeDisarm.hostRdata = s.hostRdata := rfl
@[simp] theorem State.requestEdgeDisarm_txStrobe (s : State) : s.requestEdgeDisarm.txStrobe = s.txStrobe := rfl
@[simp] theorem State.requestEdgeDisarm_txByte (s : State) : s.requestEdgeDisarm.txByte = s.txByte := rfl
@[simp] theorem State.requestEdgeDisarm_reqTimerReset (s : State) : s.requestEdgeDisarm.reqTimerReset = s.reqTimerReset := rfl
@[simp] theorem State.requestEdgeDisarm_reqEdgeArm (s : State) : s.requestEdgeDisarm.reqEdgeArm = s.reqEdgeArm := rfl
@[simp] theorem State.requestEdgeDisarm_reqEdgeDisarm (s : State) : s.requestEdgeDisarm.reqEdgeDisarm = true := rfl
@[simp] theorem State.requestEdgeDisarm_params (s : State) : s.requestEdgeDisarm.params = s.params := rfl
@[simp] theorem State.requestEdgeDisarm_feed (s : State) : s.requestEdgeDisarm.feed = s.feed := rfl
@[simp] theorem State.requestEdgeDisarm_draws (s : State) : s.requestEdgeDisarm.draws = s.draws := rfl
@[simp] theorem State.requestEdgeDisarm_inp (s : State) : s.requestEdgeDisarm.inp = s.inp := rfl

/-! ### goTo -/

@[simp] theorem State.goTo_txbuf (s : State) (t : TxState) : (s.goTo t).txbuf = s.txbuf := rfl
@[simp] theorem State.goTo_txcrc (s : State) (t : TxState) : (s.goTo t).txcrc = s.txcrc := rfl
@[simp] theorem State.goTo_txlen (s : State) (t : TxState) : (s.goTo t).txlen = s.txlen := rfl
@[simp] theorem State.goTo_rxbuf (s : State) (t : TxState) : (s.goTo t).rxbuf = s.rxbuf := rfl
@[simp] theorem State.goTo_frameReady (s : State) (t : TxState) : (s.goTo t).frameReady = s.frameReady := rfl
@[simp] theorem State.goTo_txDone (s : State) (t : TxState) : (s.goTo t).txDone = s.txDone := rfl
@[simp] theorem State.goTo_rxie (s : State) (t : TxState) : (s.goTo t).rxie = s.rxie := rfl
@[simp] theorem State.goTo_txie (s : State) (t : TxState) : (s.goTo t).txie = s.txie := rfl
@[simp] theorem State.goTo_statSent (s : State) (t : TxState) : (s.goTo t).statSent = s.statSent := rfl
@[simp] theorem State.goTo_statRecv (s : State) (t : TxState) : (s.goTo t).statRecv = s.statRecv := rfl
@[simp] theorem State.goTo_statColl (s : State) (t : TxState) : (s.goTo t).statColl = s.statColl := rfl
@[simp] theorem State.goTo_statOvf (s : State) (t : TxState) : (s.goTo t).statOvf = s.statOvf := rfl
@[simp] theorem State.goTo_txState (s : State) (t : TxState) : (s.goTo t).txState = t := rfl
@[simp] theorem State.goTo_txPos (s : State) (t : TxState) : (s.goTo t).txPos = s.txPos := rfl
@[simp] theorem State.goTo_txHalf (s : State) (t : TxState) : (s.goTo t).txHalf = s.txHalf := rfl
@[simp] theorem State.goTo_bo (s : State) (t : TxState) : (s.goTo t).bo = s.bo := rfl
@[simp] theorem State.goTo_boWait (s : State) (t : TxState) : (s.goTo t).boWait = s.boWait := rfl
@[simp] theorem State.goTo_echoTmo (s : State) (t : TxState) : (s.goTo t).echoTmo = s.echoTmo := rfl
@[simp] theorem State.goTo_checkSending (s : State) (t : TxState) : (s.goTo t).checkSending = s.checkSending := rfl
@[simp] theorem State.goTo_collision (s : State) (t : TxState) : (s.goTo t).collision = s.collision := rfl
@[simp] theorem State.goTo_echoOk (s : State) (t : TxState) : (s.goTo t).echoOk = s.echoOk := rfl
@[simp] theorem State.goTo_de (s : State) (t : TxState) : (s.goTo t).de = s.de := rfl
@[simp] theorem State.goTo_rxMode (s : State) (t : TxState) : (s.goTo t).rxMode = s.rxMode := rfl
@[simp] theorem State.goTo_rxIdx (s : State) (t : TxState) : (s.goTo t).rxIdx = s.rxIdx := rfl
@[simp] theorem State.goTo_rxEsc (s : State) (t : TxState) : (s.goTo t).rxEsc = s.rxEsc := rfl
@[simp] theorem State.goTo_rxCrc (s : State) (t : TxState) : (s.goTo t).rxCrc = s.rxCrc := rfl
@[simp] theorem State.goTo_rxCrchi (s : State) (t : TxState) : (s.goTo t).rxCrchi = s.rxCrchi := rfl
@[simp] theorem State.goTo_tmrCnt (s : State) (t : TxState) : (s.goTo t).tmrCnt = s.tmrCnt := rfl
@[simp] theorem State.goTo_octFlag (s : State) (t : TxState) : (s.goTo t).octFlag = s.octFlag := rfl
@[simp] theorem State.goTo_edgeArmed (s : State) (t : TxState) : (s.goTo t).edgeArmed = s.edgeArmed := rfl
@[simp] theorem State.goTo_edgeSeen (s : State) (t : TxState) : (s.goTo t).edgeSeen = s.edgeSeen := rfl
@[simp] theorem State.goTo_linePrev (s : State) (t : TxState) : (s.goTo t).linePrev = s.linePrev := rfl
@[simp] theorem State.goTo_hostRdata (s : State) (t : TxState) : (s.goTo t).hostRdata = s.hostRdata := rfl
@[simp] theorem State.goTo_txStrobe (s : State) (t : TxState) : (s.goTo t).txStrobe = s.txStrobe := rfl
@[simp] theorem State.goTo_txByte (s : State) (t : TxState) : (s.goTo t).txByte = s.txByte := rfl
@[simp] theorem State.goTo_reqTimerReset (s : State) (t : TxState) : (s.goTo t).reqTimerReset = s.reqTimerReset := rfl
@[simp] theorem State.goTo_reqEdgeArm (s : State) (t : TxState) : (s.goTo t).reqEdgeArm = s.reqEdgeArm := rfl
@[simp] theorem State.goTo_reqEdgeDisarm (s : State) (t : TxState) : (s.goTo t).reqEdgeDisarm = s.reqEdgeDisarm := rfl
@[simp] theorem State.goTo_params (s : State) (t : TxState) : (s.goTo t).params = s.params := rfl
@[simp] theorem State.goTo_feed (s : State) (t : TxState) : (s.goTo t).feed = s.feed := rfl
@[simp] theorem State.goTo_draws (s : State) (t : TxState) : (s.goTo t).draws = s.draws := rfl
@[simp] theorem State.goTo_inp (s : State) (t : TxState) : (s.goTo t).inp = s.inp := rfl

/-! ### advance -/

@[simp] theorem State.advance_txbuf (s : State) : s.advance.txbuf = s.txbuf := rfl
@[simp] theorem State.advance_txcrc (s : State) : s.advance.txcrc = s.txcrc := rfl
@[simp] theorem State.advance_txlen (s : State) : s.advance.txlen = s.txlen := rfl
@[simp] theorem State.advance_rxbuf (s : State) : s.advance.rxbuf = s.rxbuf := rfl
@[simp] theorem State.advance_frameReady (s : State) : s.advance.frameReady = s.frameReady := rfl
@[simp] theorem State.advance_txDone (s : State) : s.advance.txDone = s.txDone := rfl
@[simp] theorem State.advance_rxie (s : State) : s.advance.rxie = s.rxie := rfl
@[simp] theorem State.advance_txie (s : State) : s.advance.txie = s.txie := rfl
@[simp] theorem State.advance_statSent (s : State) : s.advance.statSent = s.statSent := rfl
@[simp] theorem State.advance_statRecv (s : State) : s.advance.statRecv = s.statRecv := rfl
@[simp] theorem State.advance_statColl (s : State) : s.advance.statColl = s.statColl := rfl
@[simp] theorem State.advance_statOvf (s : State) : s.advance.statOvf = s.statOvf := rfl
@[simp] theorem State.advance_txState (s : State) : s.advance.txState = s.txState := rfl
@[simp] theorem State.advance_txPos (s : State) : s.advance.txPos = s.txPos := rfl
@[simp] theorem State.advance_txHalf (s : State) : s.advance.txHalf = s.txHalf := rfl
@[simp] theorem State.advance_bo (s : State) : s.advance.bo = s.bo := rfl
@[simp] theorem State.advance_boWait (s : State) : s.advance.boWait = s.boWait := rfl
@[simp] theorem State.advance_echoTmo (s : State) : s.advance.echoTmo = s.echoTmo := rfl
@[simp] theorem State.advance_checkSending (s : State) : s.advance.checkSending = s.checkSending := rfl
@[simp] theorem State.advance_collision (s : State) : s.advance.collision = s.collision := rfl
@[simp] theorem State.advance_echoOk (s : State) : s.advance.echoOk = s.echoOk := rfl
@[simp] theorem State.advance_de (s : State) : s.advance.de = s.de := rfl
@[simp] theorem State.advance_rxMode (s : State) : s.advance.rxMode = s.rxMode := rfl
@[simp] theorem State.advance_rxIdx (s : State) : s.advance.rxIdx = s.rxIdx := rfl
@[simp] theorem State.advance_rxEsc (s : State) : s.advance.rxEsc = s.rxEsc := rfl
@[simp] theorem State.advance_rxCrc (s : State) : s.advance.rxCrc = s.rxCrc := rfl
@[simp] theorem State.advance_rxCrchi (s : State) : s.advance.rxCrchi = s.rxCrchi := rfl
@[simp] theorem State.advance_tmrCnt (s : State) : s.advance.tmrCnt = s.tmrCnt := rfl
@[simp] theorem State.advance_octFlag (s : State) : s.advance.octFlag = s.octFlag := rfl
@[simp] theorem State.advance_edgeArmed (s : State) : s.advance.edgeArmed = s.edgeArmed := rfl
@[simp] theorem State.advance_edgeSeen (s : State) : s.advance.edgeSeen = s.edgeSeen := rfl
@[simp] theorem State.advance_linePrev (s : State) : s.advance.linePrev = s.linePrev := rfl
@[simp] theorem State.advance_hostRdata (s : State) : s.advance.hostRdata = s.hostRdata := rfl
@[simp] theorem State.advance_txStrobe (s : State) : s.advance.txStrobe = s.txStrobe := rfl
@[simp] theorem State.advance_txByte (s : State) : s.advance.txByte = s.txByte := rfl
@[simp] theorem State.advance_reqTimerReset (s : State) : s.advance.reqTimerReset = s.reqTimerReset := rfl
@[simp] theorem State.advance_reqEdgeArm (s : State) : s.advance.reqEdgeArm = s.reqEdgeArm := rfl
@[simp] theorem State.advance_reqEdgeDisarm (s : State) : s.advance.reqEdgeDisarm = s.reqEdgeDisarm := rfl
@[simp] theorem State.advance_params (s : State) : s.advance.params = s.params := rfl
@[simp] theorem State.advance_feed (s : State) : s.advance.feed = s.feed.tail := rfl
@[simp] theorem State.advance_draws (s : State) : s.advance.draws = if s.feed.isEmpty then s.draws + 1 else s.draws := rfl

/-! ### present -/

@[simp] theorem State.present_txbuf (s : State) (i : Inputs) : (s.present i).txbuf = s.txbuf := rfl
@[simp] theorem State.present_txcrc (s : State) (i : Inputs) : (s.present i).txcrc = s.txcrc := rfl
@[simp] theorem State.present_txlen (s : State) (i : Inputs) : (s.present i).txlen = s.txlen := rfl
@[simp] theorem State.present_rxbuf (s : State) (i : Inputs) : (s.present i).rxbuf = s.rxbuf := rfl
@[simp] theorem State.present_frameReady (s : State) (i : Inputs) : (s.present i).frameReady = s.frameReady := rfl
@[simp] theorem State.present_txDone (s : State) (i : Inputs) : (s.present i).txDone = s.txDone := rfl
@[simp] theorem State.present_rxie (s : State) (i : Inputs) : (s.present i).rxie = s.rxie := rfl
@[simp] theorem State.present_txie (s : State) (i : Inputs) : (s.present i).txie = s.txie := rfl
@[simp] theorem State.present_statSent (s : State) (i : Inputs) : (s.present i).statSent = s.statSent := rfl
@[simp] theorem State.present_statRecv (s : State) (i : Inputs) : (s.present i).statRecv = s.statRecv := rfl
@[simp] theorem State.present_statColl (s : State) (i : Inputs) : (s.present i).statColl = s.statColl := rfl
@[simp] theorem State.present_statOvf (s : State) (i : Inputs) : (s.present i).statOvf = s.statOvf := rfl
@[simp] theorem State.present_txState (s : State) (i : Inputs) : (s.present i).txState = s.txState := rfl
@[simp] theorem State.present_txPos (s : State) (i : Inputs) : (s.present i).txPos = s.txPos := rfl
@[simp] theorem State.present_txHalf (s : State) (i : Inputs) : (s.present i).txHalf = s.txHalf := rfl
@[simp] theorem State.present_bo (s : State) (i : Inputs) : (s.present i).bo = s.bo := rfl
@[simp] theorem State.present_boWait (s : State) (i : Inputs) : (s.present i).boWait = s.boWait := rfl
@[simp] theorem State.present_echoTmo (s : State) (i : Inputs) : (s.present i).echoTmo = s.echoTmo := rfl
@[simp] theorem State.present_checkSending (s : State) (i : Inputs) : (s.present i).checkSending = s.checkSending := rfl
@[simp] theorem State.present_collision (s : State) (i : Inputs) : (s.present i).collision = s.collision := rfl
@[simp] theorem State.present_echoOk (s : State) (i : Inputs) : (s.present i).echoOk = s.echoOk := rfl
@[simp] theorem State.present_de (s : State) (i : Inputs) : (s.present i).de = s.de := rfl
@[simp] theorem State.present_rxMode (s : State) (i : Inputs) : (s.present i).rxMode = s.rxMode := rfl
@[simp] theorem State.present_rxIdx (s : State) (i : Inputs) : (s.present i).rxIdx = s.rxIdx := rfl
@[simp] theorem State.present_rxEsc (s : State) (i : Inputs) : (s.present i).rxEsc = s.rxEsc := rfl
@[simp] theorem State.present_rxCrc (s : State) (i : Inputs) : (s.present i).rxCrc = s.rxCrc := rfl
@[simp] theorem State.present_rxCrchi (s : State) (i : Inputs) : (s.present i).rxCrchi = s.rxCrchi := rfl
@[simp] theorem State.present_tmrCnt (s : State) (i : Inputs) : (s.present i).tmrCnt = s.tmrCnt := rfl
@[simp] theorem State.present_octFlag (s : State) (i : Inputs) : (s.present i).octFlag = s.octFlag := rfl
@[simp] theorem State.present_edgeArmed (s : State) (i : Inputs) : (s.present i).edgeArmed = s.edgeArmed := rfl
@[simp] theorem State.present_edgeSeen (s : State) (i : Inputs) : (s.present i).edgeSeen = s.edgeSeen := rfl
@[simp] theorem State.present_linePrev (s : State) (i : Inputs) : (s.present i).linePrev = s.linePrev := rfl
@[simp] theorem State.present_hostRdata (s : State) (i : Inputs) : (s.present i).hostRdata = s.hostRdata := rfl
@[simp] theorem State.present_txStrobe (s : State) (i : Inputs) : (s.present i).txStrobe = s.txStrobe := rfl
@[simp] theorem State.present_txByte (s : State) (i : Inputs) : (s.present i).txByte = s.txByte := rfl
@[simp] theorem State.present_reqTimerReset (s : State) (i : Inputs) : (s.present i).reqTimerReset = s.reqTimerReset := rfl
@[simp] theorem State.present_reqEdgeArm (s : State) (i : Inputs) : (s.present i).reqEdgeArm = s.reqEdgeArm := rfl
@[simp] theorem State.present_reqEdgeDisarm (s : State) (i : Inputs) : (s.present i).reqEdgeDisarm = s.reqEdgeDisarm := rfl
@[simp] theorem State.present_params (s : State) (i : Inputs) : (s.present i).params = s.params := rfl
@[simp] theorem State.present_feed (s : State) (i : Inputs) : (s.present i).feed = i :: s.feed.tail := rfl
@[simp] theorem State.present_draws (s : State) (i : Inputs) : (s.present i).draws = s.draws := rfl

/-! ### flagCollision -/

@[simp] theorem State.flagCollision_txbuf (s : State) : s.flagCollision.txbuf = s.txbuf := rfl
@[simp] theorem State.flagCollision_txcrc (s : State) : s.flagCollision.txcrc = s.txcrc := rfl
@[simp] theorem State.flagCollision_txlen (s : State) : s.flagCollision.txlen = s.txlen := rfl
@[simp] theorem State.flagCollision_rxbuf (s : State) : s.flagCollision.rxbuf = s.rxbuf := rfl
@[simp] theorem State.flagCollision_frameReady (s : State) : s.flagCollision.frameReady = s.frameReady := rfl
@[simp] theorem State.flagCollision_txDone (s : State) : s.flagCollision.txDone = s.txDone := rfl
@[simp] theorem State.flagCollision_rxie (s : State) : s.flagCollision.rxie = s.rxie := rfl
@[simp] theorem State.flagCollision_txie (s : State) : s.flagCollision.txie = s.txie := rfl
@[simp] theorem State.flagCollision_statSent (s : State) : s.flagCollision.statSent = s.statSent := rfl
@[simp] theorem State.flagCollision_statRecv (s : State) : s.flagCollision.statRecv = s.statRecv := rfl
@[simp] theorem State.flagCollision_statColl (s : State) : s.flagCollision.statColl = incStat s.params s.statColl := rfl
@[simp] theorem State.flagCollision_statOvf (s : State) : s.flagCollision.statOvf = s.statOvf := rfl
@[simp] theorem State.flagCollision_txState (s : State) : s.flagCollision.txState = s.txState := rfl
@[simp] theorem State.flagCollision_txPos (s : State) : s.flagCollision.txPos = s.txPos := rfl
@[simp] theorem State.flagCollision_txHalf (s : State) : s.flagCollision.txHalf = s.txHalf := rfl
@[simp] theorem State.flagCollision_bo (s : State) : s.flagCollision.bo = s.bo := rfl
@[simp] theorem State.flagCollision_boWait (s : State) : s.flagCollision.boWait = s.boWait := rfl
@[simp] theorem State.flagCollision_echoTmo (s : State) : s.flagCollision.echoTmo = s.echoTmo := rfl
@[simp] theorem State.flagCollision_checkSending (s : State) : s.flagCollision.checkSending = s.checkSending := rfl
@[simp] theorem State.flagCollision_collision (s : State) : s.flagCollision.collision = true := rfl
@[simp] theorem State.flagCollision_echoOk (s : State) : s.flagCollision.echoOk = s.echoOk := rfl
@[simp] theorem State.flagCollision_de (s : State) : s.flagCollision.de = s.de := rfl
@[simp] theorem State.flagCollision_rxMode (s : State) : s.flagCollision.rxMode = s.rxMode := rfl
@[simp] theorem State.flagCollision_rxIdx (s : State) : s.flagCollision.rxIdx = s.rxIdx := rfl
@[simp] theorem State.flagCollision_rxEsc (s : State) : s.flagCollision.rxEsc = s.rxEsc := rfl
@[simp] theorem State.flagCollision_rxCrc (s : State) : s.flagCollision.rxCrc = s.rxCrc := rfl
@[simp] theorem State.flagCollision_rxCrchi (s : State) : s.flagCollision.rxCrchi = s.rxCrchi := rfl
@[simp] theorem State.flagCollision_tmrCnt (s : State) : s.flagCollision.tmrCnt = s.tmrCnt := rfl
@[simp] theorem State.flagCollision_octFlag (s : State) : s.flagCollision.octFlag = s.octFlag := rfl
@[simp] theorem State.flagCollision_edgeArmed (s : State) : s.flagCollision.edgeArmed = s.edgeArmed := rfl
@[simp] theorem State.flagCollision_edgeSeen (s : State) : s.flagCollision.edgeSeen = s.edgeSeen := rfl
@[simp] theorem State.flagCollision_linePrev (s : State) : s.flagCollision.linePrev = s.linePrev := rfl
@[simp] theorem State.flagCollision_hostRdata (s : State) : s.flagCollision.hostRdata = s.hostRdata := rfl
@[simp] theorem State.flagCollision_txStrobe (s : State) : s.flagCollision.txStrobe = s.txStrobe := rfl
@[simp] theorem State.flagCollision_txByte (s : State) : s.flagCollision.txByte = s.txByte := rfl
@[simp] theorem State.flagCollision_reqTimerReset (s : State) : s.flagCollision.reqTimerReset = s.reqTimerReset := rfl
@[simp] theorem State.flagCollision_reqEdgeArm (s : State) : s.flagCollision.reqEdgeArm = s.reqEdgeArm := rfl
@[simp] theorem State.flagCollision_reqEdgeDisarm (s : State) : s.flagCollision.reqEdgeDisarm = s.reqEdgeDisarm := rfl
@[simp] theorem State.flagCollision_params (s : State) : s.flagCollision.params = s.params := rfl
@[simp] theorem State.flagCollision_feed (s : State) : s.flagCollision.feed = s.feed := rfl
@[simp] theorem State.flagCollision_draws (s : State) : s.flagCollision.draws = s.draws := rfl
@[simp] theorem State.flagCollision_inp (s : State) : s.flagCollision.inp = s.inp := rfl

/-! ### endAttempt -/

@[simp] theorem State.endAttempt_txbuf (s : State) : s.endAttempt.txbuf = s.txbuf := rfl
@[simp] theorem State.endAttempt_txcrc (s : State) : s.endAttempt.txcrc = s.txcrc := rfl
@[simp] theorem State.endAttempt_txlen (s : State) : s.endAttempt.txlen = s.txlen := rfl
@[simp] theorem State.endAttempt_rxbuf (s : State) : s.endAttempt.rxbuf = s.rxbuf := rfl
@[simp] theorem State.endAttempt_frameReady (s : State) : s.endAttempt.frameReady = s.frameReady := rfl
@[simp] theorem State.endAttempt_txDone (s : State) : s.endAttempt.txDone = s.txDone := rfl
@[simp] theorem State.endAttempt_rxie (s : State) : s.endAttempt.rxie = s.rxie := rfl
@[simp] theorem State.endAttempt_txie (s : State) : s.endAttempt.txie = s.txie := rfl
@[simp] theorem State.endAttempt_statSent (s : State) : s.endAttempt.statSent = s.statSent := rfl
@[simp] theorem State.endAttempt_statRecv (s : State) : s.endAttempt.statRecv = s.statRecv := rfl
@[simp] theorem State.endAttempt_statColl (s : State) : s.endAttempt.statColl = s.statColl := rfl
@[simp] theorem State.endAttempt_statOvf (s : State) : s.endAttempt.statOvf = s.statOvf := rfl
@[simp] theorem State.endAttempt_txState (s : State) : s.endAttempt.txState = s.txState := rfl
@[simp] theorem State.endAttempt_txPos (s : State) : s.endAttempt.txPos = s.txPos := rfl
@[simp] theorem State.endAttempt_txHalf (s : State) : s.endAttempt.txHalf = s.txHalf := rfl
@[simp] theorem State.endAttempt_bo (s : State) : s.endAttempt.bo = s.bo := rfl
@[simp] theorem State.endAttempt_boWait (s : State) : s.endAttempt.boWait = s.boWait := rfl
@[simp] theorem State.endAttempt_echoTmo (s : State) : s.endAttempt.echoTmo = s.echoTmo := rfl
@[simp] theorem State.endAttempt_checkSending (s : State) : s.endAttempt.checkSending = false := rfl
@[simp] theorem State.endAttempt_collision (s : State) : s.endAttempt.collision = s.collision := rfl
@[simp] theorem State.endAttempt_echoOk (s : State) : s.endAttempt.echoOk = s.echoOk := rfl
@[simp] theorem State.endAttempt_de (s : State) : s.endAttempt.de = s.de := rfl
@[simp] theorem State.endAttempt_rxMode (s : State) : s.endAttempt.rxMode = if s.rxMode = .self then .listen else s.rxMode := rfl
@[simp] theorem State.endAttempt_rxIdx (s : State) : s.endAttempt.rxIdx = s.rxIdx := rfl
@[simp] theorem State.endAttempt_rxEsc (s : State) : s.endAttempt.rxEsc = s.rxEsc := rfl
@[simp] theorem State.endAttempt_rxCrc (s : State) : s.endAttempt.rxCrc = s.rxCrc := rfl
@[simp] theorem State.endAttempt_rxCrchi (s : State) : s.endAttempt.rxCrchi = s.rxCrchi := rfl
@[simp] theorem State.endAttempt_tmrCnt (s : State) : s.endAttempt.tmrCnt = s.tmrCnt := rfl
@[simp] theorem State.endAttempt_octFlag (s : State) : s.endAttempt.octFlag = s.octFlag := rfl
@[simp] theorem State.endAttempt_edgeArmed (s : State) : s.endAttempt.edgeArmed = s.edgeArmed := rfl
@[simp] theorem State.endAttempt_edgeSeen (s : State) : s.endAttempt.edgeSeen = s.edgeSeen := rfl
@[simp] theorem State.endAttempt_linePrev (s : State) : s.endAttempt.linePrev = s.linePrev := rfl
@[simp] theorem State.endAttempt_hostRdata (s : State) : s.endAttempt.hostRdata = s.hostRdata := rfl
@[simp] theorem State.endAttempt_txStrobe (s : State) : s.endAttempt.txStrobe = s.txStrobe := rfl
@[simp] theorem State.endAttempt_txByte (s : State) : s.endAttempt.txByte = s.txByte := rfl
@[simp] theorem State.endAttempt_reqTimerReset (s : State) : s.endAttempt.reqTimerReset = s.reqTimerReset := rfl
@[simp] theorem State.endAttempt_reqEdgeArm (s : State) : s.endAttempt.reqEdgeArm = s.reqEdgeArm := rfl
@[simp] theorem State.endAttempt_reqEdgeDisarm (s : State) : s.endAttempt.reqEdgeDisarm = s.reqEdgeDisarm := rfl
@[simp] theorem State.endAttempt_params (s : State) : s.endAttempt.params = s.params := rfl
@[simp] theorem State.endAttempt_feed (s : State) : s.endAttempt.feed = s.feed := rfl
@[simp] theorem State.endAttempt_draws (s : State) : s.endAttempt.draws = s.draws := rfl
@[simp] theorem State.endAttempt_inp (s : State) : s.endAttempt.inp = s.inp := rfl

/-! ### collide -/

@[simp] theorem State.collide_txbuf (s : State) (b : Bool) : (s.collide b).txbuf = s.txbuf := rfl
@[simp] theorem State.collide_txcrc (s : State) (b : Bool) : (s.collide b).txcrc = s.txcrc := rfl
@[simp] theorem State.collide_txlen (s : State) (b : Bool) : (s.collide b).txlen = s.txlen := rfl
@[simp] theorem State.collide_rxbuf (s : State) (b : Bool) : (s.collide b).rxbuf = s.rxbuf := rfl
@[simp] theorem State.collide_frameReady (s : State) (b : Bool) : (s.collide b).frameReady = s.frameReady := rfl
@[simp] theorem State.collide_txDone (s : State) (b : Bool) : (s.collide b).txDone = s.txDone := rfl
@[simp] theorem State.collide_rxie (s : State) (b : Bool) : (s.collide b).rxie = s.rxie := rfl
@[simp] theorem State.collide_txie (s : State) (b : Bool) : (s.collide b).txie = s.txie := rfl
@[simp] theorem State.collide_statSent (s : State) (b : Bool) : (s.collide b).statSent = s.statSent := rfl
@[simp] theorem State.collide_statRecv (s : State) (b : Bool) : (s.collide b).statRecv = s.statRecv := rfl
@[simp] theorem State.collide_statColl (s : State) (b : Bool) : (s.collide b).statColl = if b then incStat s.params s.statColl else s.statColl := rfl
@[simp] theorem State.collide_statOvf (s : State) (b : Bool) : (s.collide b).statOvf = s.statOvf := rfl
@[simp] theorem State.collide_txState (s : State) (b : Bool) : (s.collide b).txState = .boIdleStart := rfl
@[simp] theorem State.collide_txPos (s : State) (b : Bool) : (s.collide b).txPos = s.txPos := rfl
@[simp] theorem State.collide_txHalf (s : State) (b : Bool) : (s.collide b).txHalf = s.txHalf := rfl
@[simp] theorem State.collide_bo (s : State) (b : Bool) : (s.collide b).bo = boIncrement s.params s.bo := rfl
@[simp] theorem State.collide_boWait (s : State) (b : Bool) : (s.collide b).boWait = s.boWait := rfl
@[simp] theorem State.collide_echoTmo (s : State) (b : Bool) : (s.collide b).echoTmo = s.echoTmo := rfl
@[simp] theorem State.collide_checkSending (s : State) (b : Bool) : (s.collide b).checkSending = false := rfl
@[simp] theorem State.collide_collision (s : State) (b : Bool) : (s.collide b).collision = s.collision := rfl
@[simp] theorem State.collide_echoOk (s : State) (b : Bool) : (s.collide b).echoOk = s.echoOk := rfl
@[simp] theorem State.collide_de (s : State) (b : Bool) : (s.collide b).de = false := rfl
@[simp] theorem State.collide_rxMode (s : State) (b : Bool) : (s.collide b).rxMode = s.endAttempt.rxMode := rfl
@[simp] theorem State.collide_rxIdx (s : State) (b : Bool) : (s.collide b).rxIdx = s.rxIdx := rfl
@[simp] theorem State.collide_rxEsc (s : State) (b : Bool) : (s.collide b).rxEsc = s.rxEsc := rfl
@[simp] theorem State.collide_rxCrc (s : State) (b : Bool) : (s.collide b).rxCrc = s.rxCrc := rfl
@[simp] theorem State.collide_rxCrchi (s : State) (b : Bool) : (s.collide b).rxCrchi = s.rxCrchi := rfl
@[simp] theorem State.collide_tmrCnt (s : State) (b : Bool) : (s.collide b).tmrCnt = s.tmrCnt := rfl
@[simp] theorem State.collide_octFlag (s : State) (b : Bool) : (s.collide b).octFlag = s.octFlag := rfl
@[simp] theorem State.collide_edgeArmed (s : State) (b : Bool) : (s.collide b).edgeArmed = s.edgeArmed := rfl
@[simp] theorem State.collide_edgeSeen (s : State) (b : Bool) : (s.collide b).edgeSeen = s.edgeSeen := rfl
@[simp] theorem State.collide_linePrev (s : State) (b : Bool) : (s.collide b).linePrev = s.linePrev := rfl
@[simp] theorem State.collide_hostRdata (s : State) (b : Bool) : (s.collide b).hostRdata = s.hostRdata := rfl
@[simp] theorem State.collide_txStrobe (s : State) (b : Bool) : (s.collide b).txStrobe = s.txStrobe := rfl
@[simp] theorem State.collide_txByte (s : State) (b : Bool) : (s.collide b).txByte = s.txByte := rfl
@[simp] theorem State.collide_reqTimerReset (s : State) (b : Bool) : (s.collide b).reqTimerReset = s.reqTimerReset := rfl
@[simp] theorem State.collide_reqEdgeArm (s : State) (b : Bool) : (s.collide b).reqEdgeArm = s.reqEdgeArm := rfl
@[simp] theorem State.collide_reqEdgeDisarm (s : State) (b : Bool) : (s.collide b).reqEdgeDisarm = s.reqEdgeDisarm := rfl
@[simp] theorem State.collide_params (s : State) (b : Bool) : (s.collide b).params = s.params := rfl
@[simp] theorem State.collide_feed (s : State) (b : Bool) : (s.collide b).feed = s.feed := rfl
@[simp] theorem State.collide_draws (s : State) (b : Bool) : (s.collide b).draws = s.draws := rfl
@[simp] theorem State.collide_inp (s : State) (b : Bool) : (s.collide b).inp = s.inp := rfl

/-! ### succeed -/

@[simp] theorem State.succeed_txbuf (s : State) : s.succeed.txbuf = s.txbuf := rfl
@[simp] theorem State.succeed_txcrc (s : State) : s.succeed.txcrc = s.txcrc := rfl
@[simp] theorem State.succeed_txlen (s : State) : s.succeed.txlen = s.txlen := rfl
@[simp] theorem State.succeed_rxbuf (s : State) : s.succeed.rxbuf = s.rxbuf := rfl
@[simp] theorem State.succeed_frameReady (s : State) : s.succeed.frameReady = s.frameReady := rfl
@[simp] theorem State.succeed_txDone (s : State) : s.succeed.txDone = true := rfl
@[simp] theorem State.succeed_rxie (s : State) : s.succeed.rxie = s.rxie := rfl
@[simp] theorem State.succeed_txie (s : State) : s.succeed.txie = s.txie := rfl
@[simp] theorem State.succeed_statSent (s : State) : s.succeed.statSent = incStat s.params s.statSent := rfl
@[simp] theorem State.succeed_statRecv (s : State) : s.succeed.statRecv = s.statRecv := rfl
@[simp] theorem State.succeed_statColl (s : State) : s.succeed.statColl = s.statColl := rfl
@[simp] theorem State.succeed_statOvf (s : State) : s.succeed.statOvf = s.statOvf := rfl
@[simp] theorem State.succeed_txState (s : State) : s.succeed.txState = .idle := rfl
@[simp] theorem State.succeed_txPos (s : State) : s.succeed.txPos = s.txPos := rfl
@[simp] theorem State.succeed_txHalf (s : State) : s.succeed.txHalf = s.txHalf := rfl
@[simp] theorem State.succeed_bo (s : State) : s.succeed.bo = s.bo := rfl
@[simp] theorem State.succeed_boWait (s : State) : s.succeed.boWait = s.boWait := rfl
@[simp] theorem State.succeed_echoTmo (s : State) : s.succeed.echoTmo = s.echoTmo := rfl
@[simp] theorem State.succeed_checkSending (s : State) : s.succeed.checkSending = false := rfl
@[simp] theorem State.succeed_collision (s : State) : s.succeed.collision = s.collision := rfl
@[simp] theorem State.succeed_echoOk (s : State) : s.succeed.echoOk = s.echoOk := rfl
@[simp] theorem State.succeed_de (s : State) : s.succeed.de = s.de := rfl
@[simp] theorem State.succeed_rxMode (s : State) : s.succeed.rxMode = s.endAttempt.rxMode := rfl
@[simp] theorem State.succeed_rxIdx (s : State) : s.succeed.rxIdx = s.rxIdx := rfl
@[simp] theorem State.succeed_rxEsc (s : State) : s.succeed.rxEsc = s.rxEsc := rfl
@[simp] theorem State.succeed_rxCrc (s : State) : s.succeed.rxCrc = s.rxCrc := rfl
@[simp] theorem State.succeed_rxCrchi (s : State) : s.succeed.rxCrchi = s.rxCrchi := rfl
@[simp] theorem State.succeed_tmrCnt (s : State) : s.succeed.tmrCnt = s.tmrCnt := rfl
@[simp] theorem State.succeed_octFlag (s : State) : s.succeed.octFlag = s.octFlag := rfl
@[simp] theorem State.succeed_edgeArmed (s : State) : s.succeed.edgeArmed = s.edgeArmed := rfl
@[simp] theorem State.succeed_edgeSeen (s : State) : s.succeed.edgeSeen = s.edgeSeen := rfl
@[simp] theorem State.succeed_linePrev (s : State) : s.succeed.linePrev = s.linePrev := rfl
@[simp] theorem State.succeed_hostRdata (s : State) : s.succeed.hostRdata = s.hostRdata := rfl
@[simp] theorem State.succeed_txStrobe (s : State) : s.succeed.txStrobe = s.txStrobe := rfl
@[simp] theorem State.succeed_txByte (s : State) : s.succeed.txByte = s.txByte := rfl
@[simp] theorem State.succeed_reqTimerReset (s : State) : s.succeed.reqTimerReset = s.reqTimerReset := rfl
@[simp] theorem State.succeed_reqEdgeArm (s : State) : s.succeed.reqEdgeArm = s.reqEdgeArm := rfl
@[simp] theorem State.succeed_reqEdgeDisarm (s : State) : s.succeed.reqEdgeDisarm = s.reqEdgeDisarm := rfl
@[simp] theorem State.succeed_params (s : State) : s.succeed.params = s.params := rfl
@[simp] theorem State.succeed_feed (s : State) : s.succeed.feed = s.feed := rfl
@[simp] theorem State.succeed_draws (s : State) : s.succeed.draws = s.draws := rfl
@[simp] theorem State.succeed_inp (s : State) : s.succeed.inp = s.inp := rfl

/-! ### acceptSend -/

@[simp] theorem State.acceptSend_txbuf (s : State) : s.acceptSend.txbuf = s.paddedTxbuf := by rw [State.acceptSend]
@[simp] theorem State.acceptSend_txcrc (s : State) : s.acceptSend.txcrc = computeCrc s.params s.paddedTxbuf := by rw [State.acceptSend]
@[simp] theorem State.acceptSend_txlen (s : State) : s.acceptSend.txlen = s.txlen := by rw [State.acceptSend]
@[simp] theorem State.acceptSend_rxbuf (s : State) : s.acceptSend.rxbuf = s.rxbuf := by rw [State.acceptSend]
@[simp] theorem State.acceptSend_frameReady (s : State) : s.acceptSend.frameReady = s.frameReady := by rw [State.acceptSend]
@[simp] theorem State.acceptSend_txDone (s : State) : s.acceptSend.txDone = false := by rw [State.acceptSend]
@[simp] theorem State.acceptSend_rxie (s : State) : s.acceptSend.rxie = s.rxie := by rw [State.acceptSend]
@[simp] theorem State.acceptSend_txie (s : State) : s.acceptSend.txie = s.txie := by rw [State.acceptSend]
@[simp] theorem State.acceptSend_statSent (s : State) : s.acceptSend.statSent = s.statSent := by rw [State.acceptSend]
@[simp] theorem State.acceptSend_statRecv (s : State) : s.acceptSend.statRecv = s.statRecv := by rw [State.acceptSend]
@[simp] theorem State.acceptSend_statColl (s : State) : s.acceptSend.statColl = s.statColl := by rw [State.acceptSend]
@[simp] theorem State.acceptSend_statOvf (s : State) : s.acceptSend.statOvf = s.statOvf := by rw [State.acceptSend]
@[simp] theorem State.acceptSend_txState (s : State) : s.acceptSend.txState = .senseStart := by rw [State.acceptSend]
@[simp] theorem State.acceptSend_txPos (s : State) : s.acceptSend.txPos = s.txPos := by rw [State.acceptSend]
@[simp] theorem State.acceptSend_txHalf (s : State) : s.acceptSend.txHalf = s.txHalf := by rw [State.acceptSend]
@[simp] theorem State.acceptSend_bo (s : State) : s.acceptSend.bo = 0 := by rw [State.acceptSend]
@[simp] theorem State.acceptSend_boWait (s : State) : s.acceptSend.boWait = s.boWait := by rw [State.acceptSend]
@[simp] theorem State.acceptSend_echoTmo (s : State) : s.acceptSend.echoTmo = s.echoTmo := by rw [State.acceptSend]
@[simp] theorem State.acceptSend_checkSending (s : State) : s.acceptSend.checkSending = s.checkSending := by rw [State.acceptSend]
@[simp] theorem State.acceptSend_collision (s : State) : s.acceptSend.collision = s.collision := by rw [State.acceptSend]
@[simp] theorem State.acceptSend_echoOk (s : State) : s.acceptSend.echoOk = s.echoOk := by rw [State.acceptSend]
@[simp] theorem State.acceptSend_de (s : State) : s.acceptSend.de = s.de := by rw [State.acceptSend]
@[simp] theorem State.acceptSend_rxMode (s : State) : s.acceptSend.rxMode = s.rxMode := by rw [State.acceptSend]
@[simp] theorem State.acceptSend_rxIdx (s : State) : s.acceptSend.rxIdx = s.rxIdx := by rw [State.acceptSend]
@[simp] theorem State.acceptSend_rxEsc (s : State) : s.acceptSend.rxEsc = s.rxEsc := by rw [State.acceptSend]
@[simp] theorem State.acceptSend_rxCrc (s : State) : s.acceptSend.rxCrc = s.rxCrc := by rw [State.acceptSend]
@[simp] theorem State.acceptSend_rxCrchi (s : State) : s.acceptSend.rxCrchi = s.rxCrchi := by rw [State.acceptSend]
@[simp] theorem State.acceptSend_tmrCnt (s : State) : s.acceptSend.tmrCnt = s.tmrCnt := by rw [State.acceptSend]
@[simp] theorem State.acceptSend_octFlag (s : State) : s.acceptSend.octFlag = s.octFlag := by rw [State.acceptSend]
@[simp] theorem State.acceptSend_edgeArmed (s : State) : s.acceptSend.edgeArmed = s.edgeArmed := by rw [State.acceptSend]
@[simp] theorem State.acceptSend_edgeSeen (s : State) : s.acceptSend.edgeSeen = s.edgeSeen := by rw [State.acceptSend]
@[simp] theorem State.acceptSend_linePrev (s : State) : s.acceptSend.linePrev = s.linePrev := by rw [State.acceptSend]
@[simp] theorem State.acceptSend_hostRdata (s : State) : s.acceptSend.hostRdata = s.hostRdata := by rw [State.acceptSend]
@[simp] theorem State.acceptSend_txStrobe (s : State) : s.acceptSend.txStrobe = s.txStrobe := by rw [State.acceptSend]
@[simp] theorem State.acceptSend_txByte (s : State) : s.acceptSend.txByte = s.txByte := by rw [State.acceptSend]
@[simp] theorem State.acceptSend_reqTimerReset (s : State) : s.acceptSend.reqTimerReset = s.reqTimerReset := by rw [State.acceptSend]
@[simp] theorem State.acceptSend_reqEdgeArm (s : State) : s.acceptSend.reqEdgeArm = s.reqEdgeArm := by rw [State.acceptSend]
@[simp] theorem State.acceptSend_reqEdgeDisarm (s : State) : s.acceptSend.reqEdgeDisarm = s.reqEdgeDisarm := by rw [State.acceptSend]
@[simp] theorem State.acceptSend_params (s : State) : s.acceptSend.params = s.params := by rw [State.acceptSend]
@[simp] theorem State.acceptSend_feed (s : State) : s.acceptSend.feed = s.feed := by rw [State.acceptSend]
@[simp] theorem State.acceptSend_draws (s : State) : s.acceptSend.draws = s.draws := by rw [State.acceptSend]
@[simp] theorem State.acceptSend_inp (s : State) : s.acceptSend.inp = s.inp := by simp [State.inp]

/-! ### syncFrame -/

@[simp] theorem State.syncFrame_txbuf (s : State) : s.syncFrame.txbuf = s.txbuf := rfl
@[simp] theorem State.syncFrame_txcrc (s : State) : s.syncFrame.txcrc = s.txcrc := rfl
@[simp] theorem State.syncFrame_txlen (s : State) : s.syncFrame.txlen = s.txlen := rfl
@[simp] theorem State.syncFrame_rxbuf (s : State) : s.syncFrame.rxbuf = s.rxbuf := rfl
@[simp] theorem State.syncFrame_frameReady (s : State) : s.syncFrame.frameReady = s.frameReady := rfl
@[simp] theorem State.syncFrame_txDone (s : State) : s.syncFrame.txDone = s.txDone := rfl
@[simp] theorem State.syncFrame_rxie (s : State) : s.syncFrame.rxie = s.rxie := rfl
@[simp] theorem State.syncFrame_txie (s : State) : s.syncFrame.txie = s.txie := rfl
@[simp] theorem State.syncFrame_statSent (s : State) : s.syncFrame.statSent = s.statSent := rfl
@[simp] theorem State.syncFrame_statRecv (s : State) : s.syncFrame.statRecv = s.statRecv := rfl
@[simp] theorem State.syncFrame_statColl (s : State) : s.syncFrame.statColl = if s.rxMode = .listen then s.statColl else incStat s.params s.statColl := rfl
@[simp] theorem State.syncFrame_statOvf (s : State) : s.syncFrame.statOvf = s.statOvf := rfl
@[simp] theorem State.syncFrame_txState (s : State) : s.syncFrame.txState = s.txState := rfl
@[simp] theorem State.syncFrame_txPos (s : State) : s.syncFrame.txPos = s.txPos := rfl
@[simp] theorem State.syncFrame_txHalf (s : State) : s.syncFrame.txHalf = s.txHalf := rfl
@[simp] theorem State.syncFrame_bo (s : State) : s.syncFrame.bo = s.bo := rfl
@[simp] theorem State.syncFrame_boWait (s : State) : s.syncFrame.boWait = s.boWait := rfl
@[simp] theorem State.syncFrame_echoTmo (s : State) : s.syncFrame.echoTmo = s.echoTmo := rfl
@[simp] theorem State.syncFrame_checkSending (s : State) : s.syncFrame.checkSending = s.checkSending := rfl
@[simp] theorem State.syncFrame_collision (s : State) : s.syncFrame.collision = if s.rxMode = .listen then s.collision else true := rfl
@[simp] theorem State.syncFrame_echoOk (s : State) : s.syncFrame.echoOk = s.echoOk := rfl
@[simp] theorem State.syncFrame_de (s : State) : s.syncFrame.de = s.de := rfl
@[simp] theorem State.syncFrame_rxMode (s : State) : s.syncFrame.rxMode = s.modeAtSync := rfl
@[simp] theorem State.syncFrame_rxIdx (s : State) : s.syncFrame.rxIdx = 0 := rfl
@[simp] theorem State.syncFrame_rxEsc (s : State) : s.syncFrame.rxEsc = false := rfl
@[simp] theorem State.syncFrame_rxCrc (s : State) : s.syncFrame.rxCrc = s.params.crcInit := rfl
@[simp] theorem State.syncFrame_rxCrchi (s : State) : s.syncFrame.rxCrchi = s.rxCrchi := rfl
@[simp] theorem State.syncFrame_tmrCnt (s : State) : s.syncFrame.tmrCnt = s.tmrCnt := rfl
@[simp] theorem State.syncFrame_octFlag (s : State) : s.syncFrame.octFlag = s.octFlag := rfl
@[simp] theorem State.syncFrame_edgeArmed (s : State) : s.syncFrame.edgeArmed = s.edgeArmed := rfl
@[simp] theorem State.syncFrame_edgeSeen (s : State) : s.syncFrame.edgeSeen = s.edgeSeen := rfl
@[simp] theorem State.syncFrame_linePrev (s : State) : s.syncFrame.linePrev = s.linePrev := rfl
@[simp] theorem State.syncFrame_hostRdata (s : State) : s.syncFrame.hostRdata = s.hostRdata := rfl
@[simp] theorem State.syncFrame_txStrobe (s : State) : s.syncFrame.txStrobe = s.txStrobe := rfl
@[simp] theorem State.syncFrame_txByte (s : State) : s.syncFrame.txByte = s.txByte := rfl
@[simp] theorem State.syncFrame_reqTimerReset (s : State) : s.syncFrame.reqTimerReset = s.reqTimerReset := rfl
@[simp] theorem State.syncFrame_reqEdgeArm (s : State) : s.syncFrame.reqEdgeArm = s.reqEdgeArm := rfl
@[simp] theorem State.syncFrame_reqEdgeDisarm (s : State) : s.syncFrame.reqEdgeDisarm = s.reqEdgeDisarm := rfl
@[simp] theorem State.syncFrame_params (s : State) : s.syncFrame.params = s.params := rfl
@[simp] theorem State.syncFrame_feed (s : State) : s.syncFrame.feed = s.feed := rfl
@[simp] theorem State.syncFrame_draws (s : State) : s.syncFrame.draws = s.draws := rfl
@[simp] theorem State.syncFrame_inp (s : State) : s.syncFrame.inp = s.inp := rfl

/-! ### sendSync -/

@[simp] theorem State.sendSync_txbuf (s : State) : s.sendSync.txbuf = s.txbuf := rfl
@[simp] theorem State.sendSync_txcrc (s : State) : s.sendSync.txcrc = s.txcrc := rfl
@[simp] theorem State.sendSync_txlen (s : State) : s.sendSync.txlen = s.txlen := rfl
@[simp] theorem State.sendSync_rxbuf (s : State) : s.sendSync.rxbuf = s.rxbuf := rfl
@[simp] theorem State.sendSync_frameReady (s : State) : s.sendSync.frameReady = s.frameReady := rfl
@[simp] theorem State.sendSync_txDone (s : State) : s.sendSync.txDone = s.txDone := rfl
@[simp] theorem State.sendSync_rxie (s : State) : s.sendSync.rxie = s.rxie := rfl
@[simp] theorem State.sendSync_txie (s : State) : s.sendSync.txie = s.txie := rfl
@[simp] theorem State.sendSync_statSent (s : State) : s.sendSync.statSent = s.statSent := rfl
@[simp] theorem State.sendSync_statRecv (s : State) : s.sendSync.statRecv = s.statRecv := rfl
@[simp] theorem State.sendSync_statColl (s : State) : s.sendSync.statColl = s.statColl := rfl
@[simp] theorem State.sendSync_statOvf (s : State) : s.sendSync.statOvf = s.statOvf := rfl
@[simp] theorem State.sendSync_txState (s : State) : s.sendSync.txState = s.txState := rfl
@[simp] theorem State.sendSync_txPos (s : State) : s.sendSync.txPos = 1 := rfl
@[simp] theorem State.sendSync_txHalf (s : State) : s.sendSync.txHalf = s.txHalf := rfl
@[simp] theorem State.sendSync_bo (s : State) : s.sendSync.bo = s.bo := rfl
@[simp] theorem State.sendSync_boWait (s : State) : s.sendSync.boWait = s.boWait := rfl
@[simp] theorem State.sendSync_echoTmo (s : State) : s.sendSync.echoTmo = s.echoTmo := rfl
@[simp] theorem State.sendSync_checkSending (s : State) : s.sendSync.checkSending = s.checkSending := rfl
@[simp] theorem State.sendSync_collision (s : State) : s.sendSync.collision = s.collision := rfl
@[simp] theorem State.sendSync_echoOk (s : State) : s.sendSync.echoOk = s.echoOk := rfl
@[simp] theorem State.sendSync_de (s : State) : s.sendSync.de = s.de := rfl
@[simp] theorem State.sendSync_rxMode (s : State) : s.sendSync.rxMode = s.rxMode := rfl
@[simp] theorem State.sendSync_rxIdx (s : State) : s.sendSync.rxIdx = s.rxIdx := rfl
@[simp] theorem State.sendSync_rxEsc (s : State) : s.sendSync.rxEsc = s.rxEsc := rfl
@[simp] theorem State.sendSync_rxCrc (s : State) : s.sendSync.rxCrc = s.rxCrc := rfl
@[simp] theorem State.sendSync_rxCrchi (s : State) : s.sendSync.rxCrchi = s.rxCrchi := rfl
@[simp] theorem State.sendSync_tmrCnt (s : State) : s.sendSync.tmrCnt = s.tmrCnt := rfl
@[simp] theorem State.sendSync_octFlag (s : State) : s.sendSync.octFlag = s.octFlag := rfl
@[simp] theorem State.sendSync_edgeArmed (s : State) : s.sendSync.edgeArmed = s.edgeArmed := rfl
@[simp] theorem State.sendSync_edgeSeen (s : State) : s.sendSync.edgeSeen = s.edgeSeen := rfl
@[simp] theorem State.sendSync_linePrev (s : State) : s.sendSync.linePrev = s.linePrev := rfl
@[simp] theorem State.sendSync_hostRdata (s : State) : s.sendSync.hostRdata = s.hostRdata := rfl
@[simp] theorem State.sendSync_txStrobe (s : State) : s.sendSync.txStrobe = true := rfl
@[simp] theorem State.sendSync_txByte (s : State) : s.sendSync.txByte = s.params.frameSync := rfl
@[simp] theorem State.sendSync_reqTimerReset (s : State) : s.sendSync.reqTimerReset = s.reqTimerReset := rfl
@[simp] theorem State.sendSync_reqEdgeArm (s : State) : s.sendSync.reqEdgeArm = s.reqEdgeArm := rfl
@[simp] theorem State.sendSync_reqEdgeDisarm (s : State) : s.sendSync.reqEdgeDisarm = s.reqEdgeDisarm := rfl
@[simp] theorem State.sendSync_params (s : State) : s.sendSync.params = s.params := rfl
@[simp] theorem State.sendSync_feed (s : State) : s.sendSync.feed = s.feed := rfl
@[simp] theorem State.sendSync_draws (s : State) : s.sendSync.draws = s.draws := rfl
@[simp] theorem State.sendSync_inp (s : State) : s.sendSync.inp = s.inp := rfl

/-! ### sendPlain -/

@[simp] theorem State.sendPlain_txbuf (s : State) (v : Byte) : (s.sendPlain v).txbuf = s.txbuf := rfl
@[simp] theorem State.sendPlain_txcrc (s : State) (v : Byte) : (s.sendPlain v).txcrc = s.txcrc := rfl
@[simp] theorem State.sendPlain_txlen (s : State) (v : Byte) : (s.sendPlain v).txlen = s.txlen := rfl
@[simp] theorem State.sendPlain_rxbuf (s : State) (v : Byte) : (s.sendPlain v).rxbuf = s.rxbuf := rfl
@[simp] theorem State.sendPlain_frameReady (s : State) (v : Byte) : (s.sendPlain v).frameReady = s.frameReady := rfl
@[simp] theorem State.sendPlain_txDone (s : State) (v : Byte) : (s.sendPlain v).txDone = s.txDone := rfl
@[simp] theorem State.sendPlain_rxie (s : State) (v : Byte) : (s.sendPlain v).rxie = s.rxie := rfl
@[simp] theorem State.sendPlain_txie (s : State) (v : Byte) : (s.sendPlain v).txie = s.txie := rfl
@[simp] theorem State.sendPlain_statSent (s : State) (v : Byte) : (s.sendPlain v).statSent = s.statSent := rfl
@[simp] theorem State.sendPlain_statRecv (s : State) (v : Byte) : (s.sendPlain v).statRecv = s.statRecv := rfl
@[simp] theorem State.sendPlain_statColl (s : State) (v : Byte) : (s.sendPlain v).statColl = s.statColl := rfl
@[simp] theorem State.sendPlain_statOvf (s : State) (v : Byte) : (s.sendPlain v).statOvf = s.statOvf := rfl
@[simp] theorem State.sendPlain_txState (s : State) (v : Byte) : (s.sendPlain v).txState = s.txState := rfl
@[simp] theorem State.sendPlain_txPos (s : State) (v : Byte) : (s.sendPlain v).txPos = s.txPos + 1 := rfl
@[simp] theorem State.sendPlain_txHalf (s : State) (v : Byte) : (s.sendPlain v).txHalf = s.txHalf := rfl
@[simp] theorem State.sendPlain_bo (s : State) (v : Byte) : (s.sendPlain v).bo = s.bo := rfl
@[simp] theorem State.sendPlain_boWait (s : State) (v : Byte) : (s.sendPlain v).boWait = s.boWait := rfl
@[simp] theorem State.sendPlain_echoTmo (s : State) (v : Byte) : (s.sendPlain v).echoTmo = s.echoTmo := rfl
@[simp] theorem State.sendPlain_checkSending (s : State) (v : Byte) : (s.sendPlain v).checkSending = s.checkSending := rfl
@[simp] theorem State.sendPlain_collision (s : State) (v : Byte) : (s.sendPlain v).collision = s.collision := rfl
@[simp] theorem State.sendPlain_echoOk (s : State) (v : Byte) : (s.sendPlain v).echoOk = s.echoOk := rfl
@[simp] theorem State.sendPlain_de (s : State) (v : Byte) : (s.sendPlain v).de = s.de := rfl
@[simp] theorem State.sendPlain_rxMode (s : State) (v : Byte) : (s.sendPlain v).rxMode = s.rxMode := rfl
@[simp] theorem State.sendPlain_rxIdx (s : State) (v : Byte) : (s.sendPlain v).rxIdx = s.rxIdx := rfl
@[simp] theorem State.sendPlain_rxEsc (s : State) (v : Byte) : (s.sendPlain v).rxEsc = s.rxEsc := rfl
@[simp] theorem State.sendPlain_rxCrc (s : State) (v : Byte) : (s.sendPlain v).rxCrc = s.rxCrc := rfl
@[simp] theorem State.sendPlain_rxCrchi (s : State) (v : Byte) : (s.sendPlain v).rxCrchi = s.rxCrchi := rfl
@[simp] theorem State.sendPlain_tmrCnt (s : State) (v : Byte) : (s.sendPlain v).tmrCnt = s.tmrCnt := rfl
@[simp] theorem State.sendPlain_octFlag (s : State) (v : Byte) : (s.sendPlain v).octFlag = s.octFlag := rfl
@[simp] theorem State.sendPlain_edgeArmed (s : State) (v : Byte) : (s.sendPlain v).edgeArmed = s.edgeArmed := rfl
@[simp] theorem State.sendPlain_edgeSeen (s : State) (v : Byte) : (s.sendPlain v).edgeSeen = s.edgeSeen := rfl
@[simp] theorem State.sendPlain_linePrev (s : State) (v : Byte) : (s.sendPlain v).linePrev = s.linePrev := rfl
@[simp] theorem State.sendPlain_hostRdata (s : State) (v : Byte) : (s.sendPlain v).hostRdata = s.hostRdata := rfl
@[simp] theorem State.sendPlain_txStrobe (s : State) (v : Byte) : (s.sendPlain v).txStrobe = true := rfl
@[simp] theorem State.sendPlain_txByte (s : State) (v : Byte) : (s.sendPlain v).txByte = v := rfl
@[simp] theorem State.sendPlain_reqTimerReset (s : State) (v : Byte) : (s.sendPlain v).reqTimerReset = s.reqTimerReset := rfl
@[simp] theorem State.sendPlain_reqEdgeArm (s : State) (v : Byte) : (s.sendPlain v).reqEdgeArm = s.reqEdgeArm := rfl
@[simp] theorem State.sendPlain_reqEdgeDisarm (s : State) (v : Byte) : (s.sendPlain v).reqEdgeDisarm = s.reqEdgeDisarm := rfl
@[simp] theorem State.sendPlain_params (s : State) (v : Byte) : (s.sendPlain v).params = s.params := rfl
@[simp] theorem State.sendPlain_feed (s : State) (v : Byte) : (s.sendPlain v).feed = s.feed := rfl
@[simp] theorem State.sendPlain_draws (s : State) (v : Byte) : (s.sendPlain v).draws = s.draws := rfl
@[simp] theorem State.sendPlain_inp (s : State) (v : Byte) : (s.sendPlain v).inp = s.inp := rfl

/-! ### sendPrefix -/

@[simp] theorem State.sendPrefix_txbuf (s : State) : s.sendPrefix.txbuf = s.txbuf := rfl
@[simp] theorem State.sendPrefix_txcrc (s : State) : s.sendPrefix.txcrc = s.txcrc := rfl
@[simp] theorem State.sendPrefix_txlen (s : State) : s.sendPrefix.txlen = s.txlen := rfl
@[simp] theorem State.sendPrefix_rxbuf (s : State) : s.sendPrefix.rxbuf = s.rxbuf := rfl
@[simp] theorem State.sendPrefix_frameReady (s : State) : s.sendPrefix.frameReady = s.frameReady := rfl
@[simp] theorem State.sendPrefix_txDone (s : State) : s.sendPrefix.txDone = s.txDone := rfl
@[simp] theorem State.sendPrefix_rxie (s : State) : s.sendPrefix.rxie = s.rxie := rfl
@[simp] theorem State.sendPrefix_txie (s : State) : s.sendPrefix.txie = s.txie := rfl
@[simp] theorem State.sendPrefix_statSent (s : State) : s.sendPrefix.statSent = s.statSent := rfl
@[simp] theorem State.sendPrefix_statRecv (s : State) : s.sendPrefix.statRecv = s.statRecv := rfl
@[simp] theorem State.sendPrefix_statColl (s : State) : s.sendPrefix.statColl = s.statColl := rfl
@[simp] theorem State.sendPrefix_statOvf (s : State) : s.sendPrefix.statOvf = s.statOvf := rfl
@[simp] theorem State.sendPrefix_txState (s : State) : s.sendPrefix.txState = s.txState := rfl
@[simp] theorem State.sendPrefix_txPos (s : State) : s.sendPrefix.txPos = s.txPos := rfl
@[simp] theorem State.sendPrefix_txHalf (s : State) : s.sendPrefix.txHalf = true := rfl
@[simp] theorem State.sendPrefix_bo (s : State) : s.sendPrefix.bo = s.bo := rfl
@[simp] theorem State.sendPrefix_boWait (s : State) : s.sendPrefix.boWait = s.boWait := rfl
@[simp] theorem State.sendPrefix_echoTmo (s : State) : s.sendPrefix.echoTmo = s.echoTmo := rfl
@[simp] theorem State.sendPrefix_checkSending (s : State) : s.sendPrefix.checkSending = s.checkSending := rfl
@[simp] theorem State.sendPrefix_collision (s : State) : s.sendPrefix.collision = s.collision := rfl
@[simp] theorem State.sendPrefix_echoOk (s : State) : s.sendPrefix.echoOk = s.echoOk := rfl
@[simp] theorem State.sendPrefix_de (s : State) : s.sendPrefix.de = s.de := rfl
@[simp] theorem State.sendPrefix_rxMode (s : State) : s.sendPrefix.rxMode = s.rxMode := rfl
@[simp] theorem State.sendPrefix_rxIdx (s : State) : s.sendPrefix.rxIdx = s.rxIdx := rfl
@[simp] theorem State.sendPrefix_rxEsc (s : State) : s.sendPrefix.rxEsc = s.rxEsc := rfl
@[simp] theorem State.sendPrefix_rxCrc (s : State) : s.sendPrefix.rxCrc = s.rxCrc := rfl
@[simp] theorem State.sendPrefix_rxCrchi (s : State) : s.sendPrefix.rxCrchi = s.rxCrchi := rfl
@[simp] theorem State.sendPrefix_tmrCnt (s : State) : s.sendPrefix.tmrCnt = s.tmrCnt := rfl
@[simp] theorem State.sendPrefix_octFlag (s : State) : s.sendPrefix.octFlag = s.octFlag := rfl
@[simp] theorem State.sendPrefix_edgeArmed (s : State) : s.sendPrefix.edgeArmed = s.edgeArmed := rfl
@[simp] theorem State.sendPrefix_edgeSeen (s : State) : s.sendPrefix.edgeSeen = s.edgeSeen := rfl
@[simp] theorem State.sendPrefix_linePrev (s : State) : s.sendPrefix.linePrev = s.linePrev := rfl
@[simp] theorem State.sendPrefix_hostRdata (s : State) : s.sendPrefix.hostRdata = s.hostRdata := rfl
@[simp] theorem State.sendPrefix_txStrobe (s : State) : s.sendPrefix.txStrobe = true := rfl
@[simp] theorem State.sendPrefix_txByte (s : State) : s.sendPrefix.txByte = s.params.frameEsc := rfl
@[simp] theorem State.sendPrefix_reqTimerReset (s : State) : s.sendPrefix.reqTimerReset = s.reqTimerReset := rfl
@[simp] theorem State.sendPrefix_reqEdgeArm (s : State) : s.sendPrefix.reqEdgeArm = s.reqEdgeArm := rfl
@[simp] theorem State.sendPrefix_reqEdgeDisarm (s : State) : s.sendPrefix.reqEdgeDisarm = s.reqEdgeDisarm := rfl
@[simp] theorem State.sendPrefix_params (s : State) : s.sendPrefix.params = s.params := rfl
@[simp] theorem State.sendPrefix_feed (s : State) : s.sendPrefix.feed = s.feed := rfl
@[simp] theorem State.sendPrefix_draws (s : State) : s.sendPrefix.draws = s.draws := rfl
@[simp] theorem State.sendPrefix_inp (s : State) : s.sendPrefix.inp = s.inp := rfl

/-! ### sendMasked -/

@[simp] theorem State.sendMasked_txbuf (s : State) (v : Byte) : (s.sendMasked v).txbuf = s.txbuf := rfl
@[simp] theorem State.sendMasked_txcrc (s : State) (v : Byte) : (s.sendMasked v).txcrc = s.txcrc := rfl
@[simp] theorem State.sendMasked_txlen (s : State) (v : Byte) : (s.sendMasked v).txlen = s.txlen := rfl
@[simp] theorem State.sendMasked_rxbuf (s : State) (v : Byte) : (s.sendMasked v).rxbuf = s.rxbuf := rfl
@[simp] theorem State.sendMasked_frameReady (s : State) (v : Byte) : (s.sendMasked v).frameReady = s.frameReady := rfl
@[simp] theorem State.sendMasked_txDone (s : State) (v : Byte) : (s.sendMasked v).txDone = s.txDone := rfl
@[simp] theorem State.sendMasked_rxie (s : State) (v : Byte) : (s.sendMasked v).rxie = s.rxie := rfl
@[simp] theorem State.sendMasked_txie (s : State) (v : Byte) : (s.sendMasked v).txie = s.txie := rfl
@[simp] theorem State.sendMasked_statSent (s : State) (v : Byte) : (s.sendMasked v).statSent = s.statSent := rfl
@[simp] theorem State.sendMasked_statRecv (s : State) (v : Byte) : (s.sendMasked v).statRecv = s.statRecv := rfl
@[simp] theorem State.sendMasked_statColl (s : State) (v : Byte) : (s.sendMasked v).statColl = s.statColl := rfl
@[simp] theorem State.sendMasked_statOvf (s : State) (v : Byte) : (s.sendMasked v).statOvf = s.statOvf := rfl
@[simp] theorem State.sendMasked_txState (s : State) (v : Byte) : (s.sendMasked v).txState = s.txState := rfl
@[simp] theorem State.sendMasked_txPos (s : State) (v : Byte) : (s.sendMasked v).txPos = s.txPos + 1 := rfl
@[simp] theorem State.sendMasked_txHalf (s : State) (v : Byte) : (s.sendMasked v).txHalf = false := rfl
@[simp] theorem State.sendMasked_bo (s : State) (v : Byte) : (s.sendMasked v).bo = s.bo := rfl
@[simp] theorem State.sendMasked_boWait (s : State) (v : Byte) : (s.sendMasked v).boWait = s.boWait := rfl
@[simp] theorem State.sendMasked_echoTmo (s : State) (v : Byte) : (s.sendMasked v).echoTmo = s.echoTmo := rfl
@[simp] theorem State.sendMasked_checkSending (s : State) (v : Byte) : (s.sendMasked v).checkSending = s.checkSending := rfl
@[simp] theorem State.sendMasked_collision (s : State) (v : Byte) : (s.sendMasked v).collision = s.collision := rfl
@[simp] theorem State.sendMasked_echoOk (s : State) (v : Byte) : (s.sendMasked v).echoOk = s.echoOk := rfl
@[simp] theorem State.sendMasked_de (s : State) (v : Byte) : (s.sendMasked v).de = s.de := rfl
@[simp] theorem State.sendMasked_rxMode (s : State) (v : Byte) : (s.sendMasked v).rxMode = s.rxMode := rfl
@[simp] theorem State.sendMasked_rxIdx (s : State) (v : Byte) : (s.sendMasked v).rxIdx = s.rxIdx := rfl
@[simp] theorem State.sendMasked_rxEsc (s : State) (v : Byte) : (s.sendMasked v).rxEsc = s.rxEsc := rfl
@[simp] theorem State.sendMasked_rxCrc (s : State) (v : Byte) : (s.sendMasked v).rxCrc = s.rxCrc := rfl
@[simp] theorem State.sendMasked_rxCrchi (s : State) (v : Byte) : (s.sendMasked v).rxCrchi = s.rxCrchi := rfl
@[simp] theorem State.sendMasked_tmrCnt (s : State) (v : Byte) : (s.sendMasked v).tmrCnt = s.tmrCnt := rfl
@[simp] theorem State.sendMasked_octFlag (s : State) (v : Byte) : (s.sendMasked v).octFlag = s.octFlag := rfl
@[simp] theorem State.sendMasked_edgeArmed (s : State) (v : Byte) : (s.sendMasked v).edgeArmed = s.edgeArmed := rfl
@[simp] theorem State.sendMasked_edgeSeen (s : State) (v : Byte) : (s.sendMasked v).edgeSeen = s.edgeSeen := rfl
@[simp] theorem State.sendMasked_linePrev (s : State) (v : Byte) : (s.sendMasked v).linePrev = s.linePrev := rfl
@[simp] theorem State.sendMasked_hostRdata (s : State) (v : Byte) : (s.sendMasked v).hostRdata = s.hostRdata := rfl
@[simp] theorem State.sendMasked_txStrobe (s : State) (v : Byte) : (s.sendMasked v).txStrobe = true := rfl
@[simp] theorem State.sendMasked_txByte (s : State) (v : Byte) : (s.sendMasked v).txByte = v ^^^ s.params.escMask := rfl
@[simp] theorem State.sendMasked_reqTimerReset (s : State) (v : Byte) : (s.sendMasked v).reqTimerReset = s.reqTimerReset := rfl
@[simp] theorem State.sendMasked_reqEdgeArm (s : State) (v : Byte) : (s.sendMasked v).reqEdgeArm = s.reqEdgeArm := rfl
@[simp] theorem State.sendMasked_reqEdgeDisarm (s : State) (v : Byte) : (s.sendMasked v).reqEdgeDisarm = s.reqEdgeDisarm := rfl
@[simp] theorem State.sendMasked_params (s : State) (v : Byte) : (s.sendMasked v).params = s.params := rfl
@[simp] theorem State.sendMasked_feed (s : State) (v : Byte) : (s.sendMasked v).feed = s.feed := rfl
@[simp] theorem State.sendMasked_draws (s : State) (v : Byte) : (s.sendMasked v).draws = s.draws := rfl
@[simp] theorem State.sendMasked_inp (s : State) (v : Byte) : (s.sendMasked v).inp = s.inp := rfl

/-! ### payloadByte -/

@[simp] theorem State.payloadByte_txbuf (s : State) (i : BitVec 4) (d : Byte) : (s.payloadByte i d).txbuf = s.txbuf := rfl
@[simp] theorem State.payloadByte_txcrc (s : State) (i : BitVec 4) (d : Byte) : (s.payloadByte i d).txcrc = s.txcrc := rfl
@[simp] theorem State.payloadByte_txlen (s : State) (i : BitVec 4) (d : Byte) : (s.payloadByte i d).txlen = s.txlen := rfl
@[simp] theorem State.payloadByte_rxbuf (s : State) (i : BitVec 4) (d : Byte) : (s.payloadByte i d).rxbuf = if s.rxMode = .store then bufSet s.rxbuf i d else s.rxbuf := rfl
@[simp] theorem State.payloadByte_frameReady (s : State) (i : BitVec 4) (d : Byte) : (s.payloadByte i d).frameReady = s.frameReady := rfl
@[simp] theorem State.payloadByte_txDone (s : State) (i : BitVec 4) (d : Byte) : (s.payloadByte i d).txDone = s.txDone := rfl
@[simp] theorem State.payloadByte_rxie (s : State) (i : BitVec 4) (d : Byte) : (s.payloadByte i d).rxie = s.rxie := rfl
@[simp] theorem State.payloadByte_txie (s : State) (i : BitVec 4) (d : Byte) : (s.payloadByte i d).txie = s.txie := rfl
@[simp] theorem State.payloadByte_statSent (s : State) (i : BitVec 4) (d : Byte) : (s.payloadByte i d).statSent = s.statSent := rfl
@[simp] theorem State.payloadByte_statRecv (s : State) (i : BitVec 4) (d : Byte) : (s.payloadByte i d).statRecv = s.statRecv := rfl
@[simp] theorem State.payloadByte_statColl (s : State) (i : BitVec 4) (d : Byte) : (s.payloadByte i d).statColl = s.statColl := rfl
@[simp] theorem State.payloadByte_statOvf (s : State) (i : BitVec 4) (d : Byte) : (s.payloadByte i d).statOvf = s.statOvf := rfl
@[simp] theorem State.payloadByte_txState (s : State) (i : BitVec 4) (d : Byte) : (s.payloadByte i d).txState = s.txState := rfl
@[simp] theorem State.payloadByte_txPos (s : State) (i : BitVec 4) (d : Byte) : (s.payloadByte i d).txPos = s.txPos := rfl
@[simp] theorem State.payloadByte_txHalf (s : State) (i : BitVec 4) (d : Byte) : (s.payloadByte i d).txHalf = s.txHalf := rfl
@[simp] theorem State.payloadByte_bo (s : State) (i : BitVec 4) (d : Byte) : (s.payloadByte i d).bo = s.bo := rfl
@[simp] theorem State.payloadByte_boWait (s : State) (i : BitVec 4) (d : Byte) : (s.payloadByte i d).boWait = s.boWait := rfl
@[simp] theorem State.payloadByte_echoTmo (s : State) (i : BitVec 4) (d : Byte) : (s.payloadByte i d).echoTmo = s.echoTmo := rfl
@[simp] theorem State.payloadByte_checkSending (s : State) (i : BitVec 4) (d : Byte) : (s.payloadByte i d).checkSending = s.checkSending := rfl
@[simp] theorem State.payloadByte_collision (s : State) (i : BitVec 4) (d : Byte) : (s.payloadByte i d).collision = s.collision := rfl
@[simp] theorem State.payloadByte_echoOk (s : State) (i : BitVec 4) (d : Byte) : (s.payloadByte i d).echoOk = s.echoOk := rfl
@[simp] theorem State.payloadByte_de (s : State) (i : BitVec 4) (d : Byte) : (s.payloadByte i d).de = s.de := rfl
@[simp] theorem State.payloadByte_rxMode (s : State) (i : BitVec 4) (d : Byte) : (s.payloadByte i d).rxMode = s.rxMode := rfl
@[simp] theorem State.payloadByte_rxIdx (s : State) (i : BitVec 4) (d : Byte) : (s.payloadByte i d).rxIdx = i.setWidth 5 + 1 := rfl
@[simp] theorem State.payloadByte_rxEsc (s : State) (i : BitVec 4) (d : Byte) : (s.payloadByte i d).rxEsc = s.rxEsc := rfl
@[simp] theorem State.payloadByte_rxCrc (s : State) (i : BitVec 4) (d : Byte) : (s.payloadByte i d).rxCrc = crcUpdate s.params s.rxCrc d := rfl
@[simp] theorem State.payloadByte_rxCrchi (s : State) (i : BitVec 4) (d : Byte) : (s.payloadByte i d).rxCrchi = s.rxCrchi := rfl
@[simp] theorem State.payloadByte_tmrCnt (s : State) (i : BitVec 4) (d : Byte) : (s.payloadByte i d).tmrCnt = s.tmrCnt := rfl
@[simp] theorem State.payloadByte_octFlag (s : State) (i : BitVec 4) (d : Byte) : (s.payloadByte i d).octFlag = s.octFlag := rfl
@[simp] theorem State.payloadByte_edgeArmed (s : State) (i : BitVec 4) (d : Byte) : (s.payloadByte i d).edgeArmed = s.edgeArmed := rfl
@[simp] theorem State.payloadByte_edgeSeen (s : State) (i : BitVec 4) (d : Byte) : (s.payloadByte i d).edgeSeen = s.edgeSeen := rfl
@[simp] theorem State.payloadByte_linePrev (s : State) (i : BitVec 4) (d : Byte) : (s.payloadByte i d).linePrev = s.linePrev := rfl
@[simp] theorem State.payloadByte_hostRdata (s : State) (i : BitVec 4) (d : Byte) : (s.payloadByte i d).hostRdata = s.hostRdata := rfl
@[simp] theorem State.payloadByte_txStrobe (s : State) (i : BitVec 4) (d : Byte) : (s.payloadByte i d).txStrobe = s.txStrobe := rfl
@[simp] theorem State.payloadByte_txByte (s : State) (i : BitVec 4) (d : Byte) : (s.payloadByte i d).txByte = s.txByte := rfl
@[simp] theorem State.payloadByte_reqTimerReset (s : State) (i : BitVec 4) (d : Byte) : (s.payloadByte i d).reqTimerReset = s.reqTimerReset := rfl
@[simp] theorem State.payloadByte_reqEdgeArm (s : State) (i : BitVec 4) (d : Byte) : (s.payloadByte i d).reqEdgeArm = s.reqEdgeArm := rfl
@[simp] theorem State.payloadByte_reqEdgeDisarm (s : State) (i : BitVec 4) (d : Byte) : (s.payloadByte i d).reqEdgeDisarm = s.reqEdgeDisarm := rfl
@[simp] theorem State.payloadByte_params (s : State) (i : BitVec 4) (d : Byte) : (s.payloadByte i d).params = s.params := rfl
@[simp] theorem State.payloadByte_feed (s : State) (i : BitVec 4) (d : Byte) : (s.payloadByte i d).feed = s.feed := rfl
@[simp] theorem State.payloadByte_draws (s : State) (i : BitVec 4) (d : Byte) : (s.payloadByte i d).draws = s.draws := rfl
@[simp] theorem State.payloadByte_inp (s : State) (i : BitVec 4) (d : Byte) : (s.payloadByte i d).inp = s.inp := rfl

/-! ### crcHighByte -/

@[simp] theorem State.crcHighByte_txbuf (s : State) (d : Byte) : (s.crcHighByte d).txbuf = s.txbuf := rfl
@[simp] theorem State.crcHighByte_txcrc (s : State) (d : Byte) : (s.crcHighByte d).txcrc = s.txcrc := rfl
@[simp] theorem State.crcHighByte_txlen (s : State) (d : Byte) : (s.crcHighByte d).txlen = s.txlen := rfl
@[simp] theorem State.crcHighByte_rxbuf (s : State) (d : Byte) : (s.crcHighByte d).rxbuf = s.rxbuf := rfl
@[simp] theorem State.crcHighByte_frameReady (s : State) (d : Byte) : (s.crcHighByte d).frameReady = s.frameReady := rfl
@[simp] theorem State.crcHighByte_txDone (s : State) (d : Byte) : (s.crcHighByte d).txDone = s.txDone := rfl
@[simp] theorem State.crcHighByte_rxie (s : State) (d : Byte) : (s.crcHighByte d).rxie = s.rxie := rfl
@[simp] theorem State.crcHighByte_txie (s : State) (d : Byte) : (s.crcHighByte d).txie = s.txie := rfl
@[simp] theorem State.crcHighByte_statSent (s : State) (d : Byte) : (s.crcHighByte d).statSent = s.statSent := rfl
@[simp] theorem State.crcHighByte_statRecv (s : State) (d : Byte) : (s.crcHighByte d).statRecv = s.statRecv := rfl
@[simp] theorem State.crcHighByte_statColl (s : State) (d : Byte) : (s.crcHighByte d).statColl = s.statColl := rfl
@[simp] theorem State.crcHighByte_statOvf (s : State) (d : Byte) : (s.crcHighByte d).statOvf = s.statOvf := rfl
@[simp] theorem State.crcHighByte_txState (s : State) (d : Byte) : (s.crcHighByte d).txState = s.txState := rfl
@[simp] theorem State.crcHighByte_txPos (s : State) (d : Byte) : (s.crcHighByte d).txPos = s.txPos := rfl
@[simp] theorem State.crcHighByte_txHalf (s : State) (d : Byte) : (s.crcHighByte d).txHalf = s.txHalf := rfl
@[simp] theorem State.crcHighByte_bo (s : State) (d : Byte) : (s.crcHighByte d).bo = s.bo := rfl
@[simp] theorem State.crcHighByte_boWait (s : State) (d : Byte) : (s.crcHighByte d).boWait = s.boWait := rfl
@[simp] theorem State.crcHighByte_echoTmo (s : State) (d : Byte) : (s.crcHighByte d).echoTmo = s.echoTmo := rfl
@[simp] theorem State.crcHighByte_checkSending (s : State) (d : Byte) : (s.crcHighByte d).checkSending = s.checkSending := rfl
@[simp] theorem State.crcHighByte_collision (s : State) (d : Byte) : (s.crcHighByte d).collision = s.collision := rfl
@[simp] theorem State.crcHighByte_echoOk (s : State) (d : Byte) : (s.crcHighByte d).echoOk = s.echoOk := rfl
@[simp] theorem State.crcHighByte_de (s : State) (d : Byte) : (s.crcHighByte d).de = s.de := rfl
@[simp] theorem State.crcHighByte_rxMode (s : State) (d : Byte) : (s.crcHighByte d).rxMode = s.rxMode := rfl
@[simp] theorem State.crcHighByte_rxIdx (s : State) (d : Byte) : (s.crcHighByte d).rxIdx = 17 := rfl
@[simp] theorem State.crcHighByte_rxEsc (s : State) (d : Byte) : (s.crcHighByte d).rxEsc = s.rxEsc := rfl
@[simp] theorem State.crcHighByte_rxCrc (s : State) (d : Byte) : (s.crcHighByte d).rxCrc = s.rxCrc := rfl
@[simp] theorem State.crcHighByte_rxCrchi (s : State) (d : Byte) : (s.crcHighByte d).rxCrchi = d := rfl
@[simp] theorem State.crcHighByte_tmrCnt (s : State) (d : Byte) : (s.crcHighByte d).tmrCnt = s.tmrCnt := rfl
@[simp] theorem State.crcHighByte_octFlag (s : State) (d : Byte) : (s.crcHighByte d).octFlag = s.octFlag := rfl
@[simp] theorem State.crcHighByte_edgeArmed (s : State) (d : Byte) : (s.crcHighByte d).edgeArmed = s.edgeArmed := rfl
@[simp] theorem State.crcHighByte_edgeSeen (s : State) (d : Byte) : (s.crcHighByte d).edgeSeen = s.edgeSeen := rfl
@[simp] theorem State.crcHighByte_linePrev (s : State) (d : Byte) : (s.crcHighByte d).linePrev = s.linePrev := rfl
@[simp] theorem State.crcHighByte_hostRdata (s : State) (d : Byte) : (s.crcHighByte d).hostRdata = s.hostRdata := rfl
@[simp] theorem State.crcHighByte_txStrobe (s : State) (d : Byte) : (s.crcHighByte d).txStrobe = s.txStrobe := rfl
@[simp] theorem State.crcHighByte_txByte (s : State) (d : Byte) : (s.crcHighByte d).txByte = s.txByte := rfl
@[simp] theorem State.crcHighByte_reqTimerReset (s : State) (d : Byte) : (s.crcHighByte d).reqTimerReset = s.reqTimerReset := rfl
@[simp] theorem State.crcHighByte_reqEdgeArm (s : State) (d : Byte) : (s.crcHighByte d).reqEdgeArm = s.reqEdgeArm := rfl
@[simp] theorem State.crcHighByte_reqEdgeDisarm (s : State) (d : Byte) : (s.crcHighByte d).reqEdgeDisarm = s.reqEdgeDisarm := rfl
@[simp] theorem State.crcHighByte_params (s : State) (d : Byte) : (s.crcHighByte d).params = s.params := rfl
@[simp] theorem State.crcHighByte_feed (s : State) (d : Byte) : (s.crcHighByte d).feed = s.feed := rfl
@[simp] theorem State.crcHighByte_draws (s : State) (d : Byte) : (s.crcHighByte d).draws = s.draws := rfl
@[simp] theorem State.crcHighByte_inp (s : State) (d : Byte) : (s.crcHighByte d).inp = s.inp := rfl

end Sys2Proof.Machine
end

