-- ==== Sys2Proof/Laws/Ops.lean ====
section
/-! SUPPORT. What each shared operation can do, said once: if it answers a next state, then one of these cases holds. -/

namespace Sys2Proof.Machine

/-! ## Sequencing -/

@[simp] theorem andThen_next (s : State) (f : State → Result) : andThen (.next s) f = f s := rfl
@[simp] theorem andThen_fault (e : Fault) (f : State → Result) : andThen (.fault e) f = .fault e := rfl
@[simp] theorem andThen_refused (e : Refusal) (f : State → Result) : andThen (.refused e) f = .refused e := rfl

/-- A sequence answers a next state exactly when both parts do. -/
theorem andThen_eq_next {r : Result} {f : State → Result} {t : State} :
    andThen r f = .next t ↔ ∃ s, r = .next s ∧ f s = .next t := by
  cases r <;> simp

/-- A sequence refuses exactly when one part does. -/
theorem andThen_eq_refused {r : Result} {f : State → Result} {e : Refusal} :
    andThen r f = .refused e ↔ r = .refused e ∨ ∃ s, r = .next s ∧ f s = .refused e := by
  cases r <;> simp

@[simp] theorem next_inj {s t : State} : ((.next s : Result) = .next t) ↔ s = t := by
  constructor
  · intro h; cases h; rfl
  · rintro rfl; rfl

/-- A command that may run answers a next state in one of two ways. -/
theorem runIf_eq_next {b : Bool} {f : State → Result} {s t : State} :
    runIf b f s = .next t ↔ (b = true ∧ f s = .next t) ∨ (b = false ∧ s = t) := by
  cases b <;> simp [runIf]

/-! ## The frame assembler -/

/-- The mode at a SYNC is never LISTEN. -/
theorem modeAtSync_ne_listen (s : State) : s.modeAtSync ≠ .listen := by
  unfold State.modeAtSync; split
  · simp
  · split <;> simp

/-- SELF compare: a mismatch, the confirmation, or the next index (44_arbiter_receive.md R205, R206). -/
theorem selfCompare_cases (s : State) (e d : Byte) :
    (d ≠ e ∧ s.selfCompare e d = { s with collision := true, statColl := incStat s.params s.statColl, rxMode := .listen }) ∨
      (d = e ∧ s.rxIdx.toNat = 17 ∧ s.selfCompare e d = { s with echoOk := true, rxMode := .listen }) ∨
      (d = e ∧ s.rxIdx.toNat ≠ 17 ∧ s.selfCompare e d = { s with rxIdx := s.rxIdx + 1 }) := by
  unfold State.selfCompare
  by_cases h : d = e
  · by_cases h2 : s.rxIdx.toNat = 17 <;> simp [h, h2]
  · simp [h, State.flagCollision]

/-- The end of a mailbox frame: corruption, overflow, or delivery (44_arbiter_receive.md R210). -/
theorem completeFrame_cases (s : State) (d : Byte) :
    s.completeFrame d = { s with statColl := incStat s.params s.statColl, rxMode := .listen } ∨
      (s.rxMode = .drop ∧ s.completeFrame d = { s with statOvf := incStat s.params s.statOvf, rxMode := .listen }) ∨
      (s.rxMode ≠ .drop ∧
        s.completeFrame d = { s with frameReady := true, statRecv := incStat s.params s.statRecv, rxMode := .listen }) := by
  unfold State.completeFrame
  split
  · exact .inl rfl
  · split
    · exact .inr (.inl ⟨‹_›, rfl⟩)
    · exact .inr (.inr ⟨‹_›, rfl⟩)

/-- A PROTOCOL_ID byte is its two fields (30_encoding.md R101). -/
theorem pidByte_fields (d : Byte) : pidByte (lenClass d) (protoType d) = d := by
  revert d; decide

/-- Logical byte 0: the PID row of its class is the filter on its class (44_arbiter_receive.md R207). -/
theorem firstByte_eq (d : Byte) (s : State) :
    firstByte d s =
      .next (if lenClass d ≠ s.params.lenClassExpected then { s with rxMode := .listen } else s.payloadByte 0 d) := by
  have hd := pidByte_fields d
  have hc : lenClass d = 0b00#2 ∨ lenClass d = 0b01#2 ∨ lenClass d = 0b10#2 ∨ lenClass d = 0b11#2 := by
    revert d; decide
  unfold firstByte execPidLen16 execPidLen32 execPidLen48 execPidRsvd State.filterFirstByte
  rcases hc with h | h | h | h <;> rw [h] at hd ⊢ <;> simp [hd]

/-- Logical byte 0: dropped, or the payload rule at index 0 (44_arbiter_receive.md R207). -/
theorem firstByte_cases (d : Byte) (s : State) :
    firstByte d s = .next { s with rxMode := .listen } ∨ firstByte d s = .next (s.payloadByte 0 d) := by
  rw [firstByte_eq]
  split
  · exact .inl rfl
  · exact .inr rfl

/-- Logical byte 0 of the expected length class is the payload rule on the byte itself. -/
theorem firstByte_expected {d : Byte} {s : State} (h : lenClass d = s.params.lenClassExpected) :
    firstByte d s = .next (s.payloadByte 0 d) := by
  rw [firstByte_eq, if_neg (not_not.mpr h)]

/-- Logical byte 0 of another length class drops the frame. -/
theorem firstByte_other {d : Byte} {s : State} (h : lenClass d ≠ s.params.lenClassExpected) :
    firstByte d s = .next { s with rxMode := .listen } := by
  rw [firstByte_eq, if_pos h]

/-- What a data byte of a mailbox frame can do. -/
theorem mailboxData_eq_next {d : Byte} {s t : State} (h : mailboxData d s = .next t) :
    (s.rxIdx.toNat = 0 ∧ firstByte d s = .next t) ∨
      (s.rxIdx.toNat ≠ 0 ∧ s.rxIdx.toNat < 16 ∧ t = s.payloadByte (s.rxIdx.setWidth 4) d) ∨
      (s.rxIdx.toNat = 16 ∧ t = s.crcHighByte d) ∨
      (s.rxIdx.toNat = 17 ∧ t = s.completeFrame d) := by
  unfold mailboxData at h
  split at h
  · exact .inl ⟨‹_›, h⟩
  · split at h
    · exact .inr (.inl ⟨‹_›, ‹_›, (next_inj.mp h).symm⟩)
    · split at h
      · exact .inr (.inr (.inl ⟨‹_›, (next_inj.mp h).symm⟩))
      · split at h
        · exact .inr (.inr (.inr ⟨‹_›, (next_inj.mp h).symm⟩))
        · cases h

/-- A data byte of a mailbox frame stops exactly past the frame. -/
theorem mailboxData_defined {d : Byte} {s : State} (h : s.rxIdx.toNat ≤ 17) : ∃ t, mailboxData d s = .next t := by
  unfold mailboxData
  split
  · rcases firstByte_cases d s with h' | h' <;> exact ⟨_, h'⟩
  · split
    · exact ⟨_, rfl⟩
    · split
      · exact ⟨_, rfl⟩
      · split
        · exact ⟨_, rfl⟩
        · simp only [Config.payloadSize] at *; omega

/-- The logical bytes of a frame are the list the wire carries: `L(k)` of R127 (41_frame_codec.md). -/
theorem logicalByte_eq (buf : Buf) (crc : Word) (k : Nat) : logicalByte buf crc k = (logicalFrame buf crc)[k]? := by
  unfold logicalByte logicalFrame
  have hl : buf.toList.length = 16 := by simp
  split
  · rename_i h
    rw [List.getElem?_append_left (by simpa using h), List.getElem?_eq_getElem (by simpa using h)]
    simp
  · rename_i h
    have h : 16 ≤ k := Nat.not_lt.mp h
    rw [List.getElem?_append_right (by omega), hl]
    split
    · subst_vars; rfl
    · split
      · subst_vars; rfl
      · rename_i h1 h2
        simp only [Config.payloadSize] at h1 h2
        obtain ⟨j, rfl⟩ : ∃ j, k = j + 18 := ⟨k - 18, by omega⟩
        simp

/-- A frame has 18 logical bytes (30_encoding.md R98). -/
@[simp] theorem logicalFrame_length (buf : Buf) (crc : Word) : (logicalFrame buf crc).length = 18 := by
  simp [logicalFrame]

/-- A logical byte exists exactly inside the frame. -/
theorem logicalByte_isSome {buf : Buf} {crc : Word} {k : Nat} (h : k ≤ 17) : ∃ v, logicalByte buf crc k = some v := by
  rw [logicalByte_eq]
  exact ⟨_, List.getElem?_eq_getElem (by simp; omega)⟩

/-- What a data byte of a SELF frame can do. -/
theorem selfData_eq_next {d : Byte} {s t : State} (h : selfData d s = .next t) :
    ∃ e, s.frameByte s.rxIdx.toNat = some e ∧ t = s.selfCompare e d := by
  unfold selfData at h
  split at h
  · exact ⟨_, ‹_›, (next_inj.mp h).symm⟩
  · cases h

/-- What a destuffed data byte can do, by the mode (44_arbiter_receive.md R202, R204). -/
theorem receiveData_eq_next {d : Byte} {s t : State} (h : receiveData d s = .next t) :
    (s.rxMode = .listen ∧ t = s) ∨
      (s.rxMode = .self ∧ selfData d { s with rxEsc := false } = .next t) ∨
      ((s.rxMode = .store ∨ s.rxMode = .drop) ∧ mailboxData d { s with rxEsc := false } = .next t) := by
  unfold receiveData at h
  split at h <;> simp_all

/-- The byte of a symbol. -/
@[simp] theorem rxSymbol_byte (esc : Bool) (b : Byte) : (rxSymbol esc b).extractLsb' 0 8 = b := by
  revert b; cases esc <;> decide

/-- The escape flag of a symbol. -/
@[simp] theorem rxSymbol_esc (esc : Bool) (b : Byte) : (rxSymbol esc b).getLsbD 8 = esc := by
  revert b; cases esc <;> decide

/-- A received byte, by its class: SYNC, escape prefix, or data (41_frame_codec.md R129). -/
theorem receiveByte_cases (b : Byte) (s : State) :
    (b = s.params.frameSync ∧ receiveByte b s = .next s.syncFrame) ∨
      (decodeSymbol s.params b s.rxEsc = (.none, true) ∧
        receiveByte b s = .next (if s.rxMode = .listen then s else { s with rxEsc := true })) ∨
      ∃ d, decodeSymbol s.params b s.rxEsc = (.data d, false) ∧ receiveByte b s = receiveData d s := by
  unfold receiveByte rxRow decodeRxSymWith decodeSymbol
  rw [rxSymbol_byte, rxSymbol_esc]
  by_cases hb : b = s.params.frameSync
  · refine .inl ⟨hb, ?_⟩
    rw [if_pos hb]; rfl
  · rw [if_neg hb, if_neg hb]
    by_cases he : s.rxEsc = true
    · refine .inr (.inr ⟨b ^^^ s.params.escMask, ?_, ?_⟩)
      · rw [if_pos he]
      · rw [if_pos he]; rfl
    · rw [if_neg he, if_neg he]
      by_cases hp : b = s.params.frameEsc
      · refine .inr (.inl ⟨?_, ?_⟩)
        · rw [if_pos hp]
        · rw [if_pos hp]; rfl
      · refine .inr (.inr ⟨b, ?_, ?_⟩)
        · rw [if_neg hp]
        · rw [if_neg hp]; rfl

/-! ## The parameters -/

/-- A counter of 16 bits counts by 1 modulo 2^16 (`inc16`, 00_scope.md R10). -/
theorem incStat_source {p : Params} (h : p.SourceLiterals) (x : Word) : incStat p x = x + 1 := by
  refine BitVec.eq_of_toNat_eq ?_
  simp [incStat, h.statW, BitVec.toNat_add]

/-- The decoder of this hardware's symbols is the one of the opcode table, for every value of the OPEN parameters. -/
theorem decodeRxSymWith_source {p : Params} (h : p.SourceLiterals) (v : BitVec 9) :
    decode (.rxSym v) = .ok (decodeRxSymWith p v) := by
  rw [decodeRxSymWith, h.frameSync, h.frameEsc]; rfl

/-- The same for the logical bytes to send. -/
theorem decodeTxEncWith_source {p : Params} (h : p.SourceLiterals) (v : Byte) :
    decode (.txEnc v) = .ok (decodeTxEncWith p v) := by
  rw [decodeTxEncWith, h.frameSync, h.frameEsc]; rfl

/-- The parameters of this hardware are the source's literals. -/
theorem params_source : Config.params.SourceLiterals := by constructor <;> rfl

/-! ## The stuffing encoder -/

/-- One run of the TXENC row of a logical byte, by `next_wire`'s three cases (41_frame_codec.md R127). -/
theorem encodeNext_eq (v : Byte) (s : State) :
    encodeNext v s =
      .next (if s.txHalf then s.sendMasked v else if isReserved s.params v then s.sendPrefix else s.sendPlain v) := by
  unfold encodeNext execTxEncSync execTxEncEsc execTxEncPlain isReserved
  by_cases h1 : v = s.params.frameSync
  · subst h1; cases s.txHalf <;> simp
  · by_cases h2 : v = s.params.frameEsc
    · subst h2; rw [if_neg h1, if_pos rfl]; cases s.txHalf <;> simp
    · cases s.txHalf <;> simp [h1, h2]

/-- What `next_wire` can do. -/
theorem nextWire_eq_next {s t : State} (h : nextWire s = .next t) :
    (s.txPos = 0 ∧ t = s.sendSync) ∨
      ∃ v, s.txPos ≠ 0 ∧ s.frameByte (s.txPos.toNat - 1) = some v ∧
        t = if s.txHalf then s.sendMasked v else if isReserved s.params v then s.sendPrefix else s.sendPlain v := by
  unfold nextWire at h
  split at h
  · exact .inl ⟨‹_›, (next_inj.mp h).symm⟩
  · split at h
    · rw [encodeNext_eq] at h
      exact .inr ⟨_, ‹_›, ‹_›, (next_inj.mp h).symm⟩
    · cases h

/-- `next_wire` is defined up to position P + 2. -/
theorem nextWire_defined {s : State} (h : s.txPos.toNat ≤ 18) : ∃ t, nextWire s = .next t := by
  unfold nextWire
  split
  · exact ⟨_, rfl⟩
  · obtain ⟨v, hv⟩ := logicalByte_isSome (buf := s.txbuf) (crc := s.txcrc) (k := s.txPos.toNat - 1) (by omega)
    simp only [State.frameByte, hv, encodeNext_eq]
    exact ⟨_, rfl⟩

/-! ## Backoff -/

/-- `bo` goes up by one and saturates at BO_MAX (43_arbiter_send.md R174). -/
theorem boIncrement_toNat {p : Params} (h : p.SourceLiterals) (b : BitVec 4) :
    (boIncrement p b).toNat = min (b.toNat + 1) 8 := by
  simp only [boIncrement, h.boMax]
  revert b; decide

/-- The window is at most 16 while `bo` is at most BO_MAX (43_arbiter_send.md R176). -/
theorem boWindow_le (b : BitVec 4) (h : b.toNat ≤ 8) : boWindow b ≤ 16 := by
  revert b; decide

/-- The window is never empty. -/
theorem boWindow_pos (b : BitVec 4) : 1 ≤ boWindow b := by
  revert b; decide

/-- The draw lies in 1..W, whatever RND_W is (43_arbiter_send.md R170, R183). -/
theorem boDraw_toNat (p : Params) (b : BitVec 4) (r : Byte) (h : b.toNat ≤ 8) :
    (boDraw p b r).toNat = 1 + r.toNat % 2 ^ p.rndW % boWindow b := by
  have h1 := boWindow_le b h
  have h2 := Nat.mod_lt (r.toNat % 2 ^ p.rndW) (boWindow_pos b)
  unfold boDraw
  rw [BitVec.toNat_ofNat]
  omega

end Sys2Proof.Machine
end

