-- ==== Sys2Proof/Laws/Frames.lean ====
section
/-! SUPPORT. What a step can do, said once: the inversion of `step`, and for each phase the fields its rows leave alone
(spec 10_state.md R44). -/

namespace Sys2Proof.Machine

/-! ## The step -/

/-- A step is the reset cycle or the four phases in order. -/
theorem step_eq_next {s t : State} :
    step s = .next t ↔
      (s.inp.rst = true ∧ resetCycle s = t) ∨
        (s.inp.rst = false ∧
          ∃ s1 s2 s3, hostPhase s = .next s1 ∧ rxPhase s1 = .next s2 ∧ txPhase s2 = .next s3 ∧
            (tmrPhase s3).advance = t) := by
  unfold step
  cases s.inp.rst
  · simp only [Bool.false_eq_true, if_false, false_and, false_or, true_and, cycle, andThen_eq_next, next_inj]
    constructor
    · rintro ⟨s1, h1, s2, h2, s3, h3, h4⟩
      exact ⟨s1, s2, s3, h1, h2, h3, h4⟩
    · rintro ⟨s1, s2, s3, h1, h2, h3, h4⟩
      exact ⟨s1, h1, s2, h2, s3, h3, h4⟩
  · simp

/-- The TXSTATE row of a control state is the one its code decodes to (30_encoding.md R108). -/
theorem txRow_decodes (t : TxState) : decodeTxState t.code = .ok (txRow t) := by
  cases t <;> rfl

/-! ## HOST -/

/-- The decoder answers a HOST row for every transaction word (30_encoding.md R97). -/
theorem decodeHost_format (w : Txn) : (tableRow (decodeHost w)).format = .host := by
  unfold decodeHost decodeWrite decodeRead
  repeat' split
  all_goals rfl

/-- The fields a HOST row may write; it changes no other (R44). -/
theorem exec_host_frame {i : Instr} (hi : (tableRow i).format = .host) {s t : State} (h : exec i s = .next t) :
    t =
      { s with
        hostRdata := t.hostRdata, txbuf := t.txbuf, txcrc := t.txcrc, txlen := t.txlen, rxie := t.rxie, txie := t.txie
        frameReady := t.frameReady, txDone := t.txDone, bo := t.bo, txState := t.txState } := by
  cases i <;> try (simp [tableRow] at hi; done)
  case wrTxbuf =>
    simp only [exec, execWrTxbuf, next_inj] at h
    subst h; split <;> rfl
  case wrCtrl rxie txie send msgDone txdoneClr =>
    simp only [exec, execWrCtrl, andThen_eq_next, runIf_eq_next, execCtrlTxdoneClr, execCtrlMsgDone, execCtrlSend,
      next_inj] at h
    obtain ⟨s1, h1, s2, h2, h3⟩ := h
    obtain ⟨-, rfl⟩ | ⟨-, rfl⟩ := h1 <;> obtain ⟨-, rfl⟩ | ⟨-, rfl⟩ := h2 <;> obtain ⟨-, rfl⟩ | ⟨-, rfl⟩ := h3 <;>
      (try split) <;> ext1 <;> simp
  all_goals
    simp only [exec, execRdTxbuf, execRdRxbuf, execWrRxbuf, execRdCtrl, execRdTxlen, execWrTxlen, execRdStatus,
      execRdTxcrc, execRdStatSent, execRdStatRecv, execRdStatColl, execRdStatOvf, execWrStatus, execWrTxcrc,
      execWrStat, execRdRsvd2x, execRdRsvd3x, execWrRsvd2x, execWrRsvd3x, execNop, next_inj] at h
    subst h; rfl

/-- A HOST row never stops (60_exceptions.md R270). -/
theorem exec_host_defined {i : Instr} (hi : (tableRow i).format = .host) (s : State) : ∃ t, exec i s = .next t := by
  cases i <;> try (simp [tableRow] at hi; done)
  case wrCtrl rxie txie send msgDone txdoneClr =>
    simp only [exec, execWrCtrl, andThen_eq_next, runIf_eq_next, execCtrlTxdoneClr, execCtrlMsgDone, execCtrlSend,
      next_inj]
    cases send <;> cases msgDone <;> cases txdoneClr <;> simp
  all_goals exact ⟨_, rfl⟩

/-- While a send is running a HOST row leaves the outbound frame, `bo` and the sequencer alone
(45_host_interface.md R232, R239). -/
theorem exec_host_busy {i : Instr} (hi : (tableRow i).format = .host) {s t : State} (hs : s.txState ≠ .idle)
    (h : exec i s = .next t) :
    t.txbuf = s.txbuf ∧ t.txcrc = s.txcrc ∧ t.bo = s.bo ∧ t.txState = s.txState ∧
      (t.txDone = s.txDone ∨ t.txDone = false) := by
  cases i <;> try (simp [tableRow] at hi; done)
  case wrTxbuf =>
    simp only [exec, execWrTxbuf, hs, if_false, next_inj] at h
    subst h; simp
  case wrCtrl rxie txie send msgDone txdoneClr =>
    simp only [exec, execWrCtrl, andThen_eq_next, runIf_eq_next, execCtrlTxdoneClr, execCtrlMsgDone, execCtrlSend,
      next_inj] at h
    obtain ⟨s1, h1, s2, h2, h3⟩ := h
    obtain ⟨-, rfl⟩ | ⟨-, rfl⟩ := h1 <;> obtain ⟨-, rfl⟩ | ⟨-, rfl⟩ := h2 <;> obtain ⟨-, rfl⟩ | ⟨-, rfl⟩ := h3 <;>
      simp [hs]
  all_goals
    simp only [exec, execRdTxbuf, execRdRxbuf, execWrRxbuf, execRdCtrl, execRdTxlen, execWrTxlen, execRdStatus,
      execRdTxcrc, execRdStatSent, execRdStatRecv, execRdStatColl, execRdStatOvf, execWrStatus, execWrTxcrc,
      execWrStat, execRdRsvd2x, execRdRsvd3x, execWrRsvd2x, execWrRsvd3x, execNop, next_inj] at h
    subst h; simp

/-- In IDLE a HOST row either leaves the sequencer in IDLE, or is a CTRL write whose SEND is accepted
(45_host_interface.md R239). -/
theorem exec_host_idle {i : Instr} (hi : (tableRow i).format = .host) {s t : State} (hs : s.txState = .idle)
    (h : exec i s = .next t) :
    (t.txState = .idle ∧ t.bo = s.bo ∧ t.txcrc = s.txcrc) ∨
      (t.txState = .senseStart ∧ t.bo = 0 ∧ t.txDone = false ∧ t.txcrc = computeCrc s.params t.txbuf) := by
  cases i <;> try (simp [tableRow] at hi; done)
  case wrTxbuf =>
    simp only [exec, execWrTxbuf, hs, if_true, next_inj] at h
    subst h; simp [hs]
  case wrCtrl rxie txie send msgDone txdoneClr =>
    simp only [exec, execWrCtrl, andThen_eq_next, runIf_eq_next, execCtrlTxdoneClr, execCtrlMsgDone, execCtrlSend,
      next_inj] at h
    obtain ⟨s1, h1, s2, h2, h3⟩ := h
    obtain ⟨-, rfl⟩ | ⟨-, rfl⟩ := h1 <;> obtain ⟨-, rfl⟩ | ⟨-, rfl⟩ := h2 <;> obtain ⟨-, rfl⟩ | ⟨-, rfl⟩ := h3 <;>
      simp [hs]
  all_goals
    simp only [exec, execRdTxbuf, execRdRxbuf, execWrRxbuf, execRdCtrl, execRdTxlen, execWrTxlen, execRdStatus,
      execRdTxcrc, execRdStatSent, execRdStatRecv, execRdStatColl, execRdStatOvf, execWrStatus, execWrTxcrc,
      execWrStat, execRdRsvd2x, execRdRsvd3x, execWrRsvd2x, execWrRsvd3x, execNop, next_inj] at h
    subst h; simp [hs]

/-- A HOST row clears `FRAME_READY` only as a CTRL write with MSG_DONE (45_host_interface.md R238). -/
theorem exec_host_frameReady {i : Instr} (hi : (tableRow i).format = .host) {s t : State} (h : exec i s = .next t) :
    t.frameReady = s.frameReady ∨
      (t.frameReady = false ∧ ∃ rxie txie send txdoneClr, i = .wrCtrl rxie txie send true txdoneClr) := by
  cases i <;> try (simp [tableRow] at hi; done)
  case wrTxbuf =>
    simp only [exec, execWrTxbuf, next_inj] at h
    subst h; split <;> simp
  case wrCtrl rxie txie send msgDone txdoneClr =>
    simp only [exec, execWrCtrl, andThen_eq_next, runIf_eq_next, execCtrlTxdoneClr, execCtrlMsgDone, execCtrlSend,
      next_inj] at h
    obtain ⟨s1, h1, s2, h2, h3⟩ := h
    obtain ⟨-, rfl⟩ | ⟨-, rfl⟩ := h1 <;> obtain ⟨rfl, rfl⟩ | ⟨rfl, rfl⟩ := h2 <;>
      obtain ⟨-, rfl⟩ | ⟨-, rfl⟩ := h3 <;> (try split) <;> simp
  all_goals
    simp only [exec, execRdTxbuf, execRdRxbuf, execWrRxbuf, execRdCtrl, execRdTxlen, execWrTxlen, execRdStatus,
      execRdTxcrc, execRdStatSent, execRdStatRecv, execRdStatColl, execRdStatOvf, execWrStatus, execWrTxcrc,
      execWrStat, execRdRsvd2x, execRdRsvd3x, execWrRsvd2x, execWrRsvd3x, execNop, next_inj] at h
    subst h; simp

/-! ## RX -/

/-- The fields a received byte may write; it changes no other (R44). -/
theorem receiveByte_frame {b : Byte} {s t : State} (h : receiveByte b s = .next t) :
    t =
      { s with
        rxbuf := t.rxbuf, frameReady := t.frameReady, statRecv := t.statRecv, statColl := t.statColl
        statOvf := t.statOvf, collision := t.collision, echoOk := t.echoOk, rxMode := t.rxMode, rxIdx := t.rxIdx
        rxEsc := t.rxEsc, rxCrc := t.rxCrc, rxCrchi := t.rxCrchi } := by
  rcases receiveByte_cases b s with ⟨-, h'⟩ | ⟨-, h'⟩ | ⟨d, -, h'⟩ <;> rw [h'] at h
  · cases h; rfl
  · cases h; split <;> rfl
  · rcases receiveData_eq_next h with ⟨-, rfl⟩ | ⟨-, h⟩ | ⟨-, h⟩
    · rfl
    · obtain ⟨e, -, rfl⟩ := selfData_eq_next h
      rcases selfCompare_cases { s with rxEsc := false } e d with ⟨-, h⟩ | ⟨-, -, h⟩ | ⟨-, -, h⟩ <;> rw [h]
    · rcases mailboxData_eq_next h with ⟨-, h⟩ | ⟨-, -, rfl⟩ | ⟨-, rfl⟩ | ⟨-, rfl⟩
      · rcases firstByte_cases d { s with rxEsc := false } with h' | h' <;> rw [h'] at h <;> cases h <;> rfl
      · rfl
      · rfl
      · rcases completeFrame_cases { s with rxEsc := false } d with h | ⟨-, h⟩ | ⟨-, h⟩ <;> rw [h]

/-! ## TX -/

/-- The fields a TXSTATE row may write; it changes no other (R44). -/
theorem exec_tx_frame {x : TxState} {s t : State} (h : exec (txRow x) s = .next t) :
    t =
      { s with
        txState := t.txState, txPos := t.txPos, txHalf := t.txHalf, bo := t.bo, boWait := t.boWait
        echoTmo := t.echoTmo, checkSending := t.checkSending, collision := t.collision, echoOk := t.echoOk
        de := t.de, rxMode := t.rxMode, rxIdx := t.rxIdx, rxEsc := t.rxEsc, txDone := t.txDone
        statSent := t.statSent, statColl := t.statColl, txStrobe := t.txStrobe, txByte := t.txByte
        reqTimerReset := t.reqTimerReset, reqEdgeArm := t.reqEdgeArm, reqEdgeDisarm := t.reqEdgeDisarm } := by
  cases x
  case txSend =>
    simp only [txRow, exec, execTxsTxSend] at h
    split at h
    · cases h; rfl
    · split at h
      · obtain ⟨u, hu, h⟩ := andThen_eq_next.mp h
        rcases nextWire_eq_next hu with ⟨-, rfl⟩ | ⟨v, -, -, rfl⟩
        · cases h; split <;> rfl
        · cases h; repeat' split
          all_goals rfl
      · cases h; rfl
  all_goals
    simp only [txRow, exec, execTxsIdle, execTxsSenseStart, execTxsSenseWait, execTxsTxBegin, execTxsTxDrain,
      execTxsEchoStart, execTxsEchoWait, execTxsBoIdleStart, execTxsBoIdleWait, execTxsBoRandStart, execTxsBoRandWait,
      execTxsBoCheckStart, execTxsBoCheckWait, startIdleCheck, finishIdleCheck, next_inj] at h
    subst h
    repeat' split
    all_goals rfl

/-! ## TMR -/

/-- The fields the TMR phase writes; it changes no other (R43, R44). -/
theorem tmrPhase_frame (s : State) :
    tmrPhase s =
      { s with
        tmrCnt := (tmrPhase s).tmrCnt, octFlag := (tmrPhase s).octFlag, edgeArmed := (tmrPhase s).edgeArmed
        edgeSeen := (tmrPhase s).edgeSeen, linePrev := (tmrPhase s).linePrev
        reqTimerReset := false, reqEdgeArm := false, reqEdgeDisarm := false } := by
  unfold tmrPhase timerStep edgeStep
  repeat' split
  all_goals rfl

end Sys2Proof.Machine
end

