-- ==== Sys2Proof/Laws/Keeps.lean ====
section
/-! SUPPORT. The frames of the four phases, field by field: the fields a phase leaves as they are (spec 10_state.md
R44). -/

namespace Sys2Proof.Machine

/-- What a HOST row leaves as it is. -/
structure HostKeeps (s t : State) : Prop where
  rxbuf : t.rxbuf = s.rxbuf
  statSent : t.statSent = s.statSent
  statRecv : t.statRecv = s.statRecv
  statColl : t.statColl = s.statColl
  statOvf : t.statOvf = s.statOvf
  txPos : t.txPos = s.txPos
  txHalf : t.txHalf = s.txHalf
  boWait : t.boWait = s.boWait
  echoTmo : t.echoTmo = s.echoTmo
  checkSending : t.checkSending = s.checkSending
  collision : t.collision = s.collision
  echoOk : t.echoOk = s.echoOk
  de : t.de = s.de
  rxMode : t.rxMode = s.rxMode
  rxIdx : t.rxIdx = s.rxIdx
  rxEsc : t.rxEsc = s.rxEsc
  rxCrc : t.rxCrc = s.rxCrc
  rxCrchi : t.rxCrchi = s.rxCrchi
  tmrCnt : t.tmrCnt = s.tmrCnt
  octFlag : t.octFlag = s.octFlag
  edgeArmed : t.edgeArmed = s.edgeArmed
  edgeSeen : t.edgeSeen = s.edgeSeen
  linePrev : t.linePrev = s.linePrev
  txStrobe : t.txStrobe = s.txStrobe
  txByte : t.txByte = s.txByte
  reqTimerReset : t.reqTimerReset = s.reqTimerReset
  reqEdgeArm : t.reqEdgeArm = s.reqEdgeArm
  reqEdgeDisarm : t.reqEdgeDisarm = s.reqEdgeDisarm
  params : t.params = s.params
  feed : t.feed = s.feed
  draws : t.draws = s.draws

/-- Every HOST row keeps them. -/
theorem exec_host_keeps {i : Instr} (hi : (tableRow i).format = .host) {s t : State} (h : exec i s = .next t) :
    HostKeeps s t := by
  have e := exec_host_frame hi h
  constructor <;> rw [e]

/-- What a received byte leaves as it is. -/
structure RxKeeps (s t : State) : Prop where
  txbuf : t.txbuf = s.txbuf
  txcrc : t.txcrc = s.txcrc
  txlen : t.txlen = s.txlen
  txDone : t.txDone = s.txDone
  rxie : t.rxie = s.rxie
  txie : t.txie = s.txie
  statSent : t.statSent = s.statSent
  txState : t.txState = s.txState
  txPos : t.txPos = s.txPos
  txHalf : t.txHalf = s.txHalf
  bo : t.bo = s.bo
  boWait : t.boWait = s.boWait
  echoTmo : t.echoTmo = s.echoTmo
  checkSending : t.checkSending = s.checkSending
  de : t.de = s.de
  tmrCnt : t.tmrCnt = s.tmrCnt
  octFlag : t.octFlag = s.octFlag
  edgeArmed : t.edgeArmed = s.edgeArmed
  edgeSeen : t.edgeSeen = s.edgeSeen
  linePrev : t.linePrev = s.linePrev
  hostRdata : t.hostRdata = s.hostRdata
  txStrobe : t.txStrobe = s.txStrobe
  txByte : t.txByte = s.txByte
  reqTimerReset : t.reqTimerReset = s.reqTimerReset
  reqEdgeArm : t.reqEdgeArm = s.reqEdgeArm
  reqEdgeDisarm : t.reqEdgeDisarm = s.reqEdgeDisarm
  params : t.params = s.params
  feed : t.feed = s.feed
  draws : t.draws = s.draws

/-- Every received byte keeps them. -/
theorem receiveByte_keeps {b : Byte} {s t : State} (h : receiveByte b s = .next t) : RxKeeps s t := by
  have e := receiveByte_frame h
  constructor <;> rw [e]

/-- What a TXSTATE row leaves as it is. -/
structure TxKeeps (s t : State) : Prop where
  txbuf : t.txbuf = s.txbuf
  txcrc : t.txcrc = s.txcrc
  txlen : t.txlen = s.txlen
  rxbuf : t.rxbuf = s.rxbuf
  frameReady : t.frameReady = s.frameReady
  rxie : t.rxie = s.rxie
  txie : t.txie = s.txie
  statRecv : t.statRecv = s.statRecv
  statOvf : t.statOvf = s.statOvf
  rxCrc : t.rxCrc = s.rxCrc
  rxCrchi : t.rxCrchi = s.rxCrchi
  tmrCnt : t.tmrCnt = s.tmrCnt
  octFlag : t.octFlag = s.octFlag
  edgeArmed : t.edgeArmed = s.edgeArmed
  edgeSeen : t.edgeSeen = s.edgeSeen
  linePrev : t.linePrev = s.linePrev
  hostRdata : t.hostRdata = s.hostRdata
  params : t.params = s.params
  feed : t.feed = s.feed
  draws : t.draws = s.draws

/-- Every TXSTATE row keeps them. -/
theorem exec_tx_keeps {x : TxState} {s t : State} (h : exec (txRow x) s = .next t) : TxKeeps s t := by
  have e := exec_tx_frame h
  constructor <;> rw [e]

/-- What the TMR phase leaves as it is. -/
structure TmrKeeps (s t : State) : Prop where
  txbuf : t.txbuf = s.txbuf
  txcrc : t.txcrc = s.txcrc
  txlen : t.txlen = s.txlen
  rxbuf : t.rxbuf = s.rxbuf
  frameReady : t.frameReady = s.frameReady
  txDone : t.txDone = s.txDone
  rxie : t.rxie = s.rxie
  txie : t.txie = s.txie
  statSent : t.statSent = s.statSent
  statRecv : t.statRecv = s.statRecv
  statColl : t.statColl = s.statColl
  statOvf : t.statOvf = s.statOvf
  txState : t.txState = s.txState
  txPos : t.txPos = s.txPos
  txHalf : t.txHalf = s.txHalf
  bo : t.bo = s.bo
  boWait : t.boWait = s.boWait
  echoTmo : t.echoTmo = s.echoTmo
  checkSending : t.checkSending = s.checkSending
  collision : t.collision = s.collision
  echoOk : t.echoOk = s.echoOk
  de : t.de = s.de
  rxMode : t.rxMode = s.rxMode
  rxIdx : t.rxIdx = s.rxIdx
  rxEsc : t.rxEsc = s.rxEsc
  rxCrc : t.rxCrc = s.rxCrc
  rxCrchi : t.rxCrchi = s.rxCrchi
  hostRdata : t.hostRdata = s.hostRdata
  txStrobe : t.txStrobe = s.txStrobe
  txByte : t.txByte = s.txByte
  params : t.params = s.params
  feed : t.feed = s.feed
  draws : t.draws = s.draws

/-- The TMR phase keeps them. -/
theorem tmrPhase_keeps (s : State) : TmrKeeps s (tmrPhase s) := by
  have e := tmrPhase_frame s
  constructor <;> rw [e]

end Sys2Proof.Machine
end

