-- ==== Sys2Proof/Laws/Words.lean ====
section
/-! SUPPORT. The bits of the words that are put together from fields: the transaction word (spec 30_encoding.md R90)
and STATUS (R95). -/

namespace Sys2Proof

/-- The fields of a transaction word that an access puts together are the access's own (R90). -/
theorem txnWord_fields (we : Bool) (a : Addr) (wd : Word) :
    txnEn (txnWord we a wd) = true ∧ txnWe (txnWord we a wd) = we ∧ txnAddr (txnWord we a wd) = a ∧
      txnWdata (txnWord we a wd) = wd := by
  have bit (i : Nat) :
      (txnWord we a wd).getLsbD i = if i < 16 then wd.getLsbD i else (1#1 ++ BitVec.ofBool we ++ a).getLsbD (i - 16) :=
    BitVec.getLsbD_append
  refine ⟨?_, ?_, BitVec.eq_of_getLsbD_eq fun i hi => ?_, BitVec.eq_of_getLsbD_eq fun i hi => ?_⟩
  · simp only [txnEn, bit, BitVec.getLsbD_append]; simp
  · simp only [txnWe, bit, BitVec.getLsbD_append]; simp
  · simp only [txnAddr, BitVec.getLsbD_extractLsb', bit, BitVec.getLsbD_append]
    simp [hi]
  · simp only [txnWdata, BitVec.getLsbD_extractLsb', bit]
    simp [hi]

/-- `RD a` decodes by its address (R91). -/
theorem decodeHost_rdWord (a : Addr) : decodeHost (rdWord a) = decodeRead a := by
  obtain ⟨h1, h2, h3, -⟩ := txnWord_fields false a 0
  unfold decodeHost rdWord
  rw [h1, h2, h3]; rfl

/-- `WR a, d` decodes by its address and data (R91). -/
theorem decodeHost_wrWord (a : Addr) (wd : Word) : decodeHost (wrWord a wd) = decodeWrite a wd := by
  obtain ⟨h1, h2, h3, h4⟩ := txnWord_fields true a wd
  unfold decodeHost wrWord
  rw [h1, h2, h3, h4]; rfl

/-- The transaction word of the host ports decodes by the ports (R90). -/
theorem decodeHost_hostTransaction (i : Inputs) :
    decodeHost (Machine.hostTransaction i) =
      if i.hostEn = false then .nop
      else if i.hostWe then decodeWrite i.hostAddr i.hostWdata else decodeRead i.hostAddr := by
  have bit (k : Nat) :
      (Machine.hostTransaction i).getLsbD k =
        if k < 16 then i.hostWdata.getLsbD k
        else (BitVec.ofBool i.hostEn ++ BitVec.ofBool i.hostWe ++ i.hostAddr).getLsbD (k - 16) :=
    BitVec.getLsbD_append
  have h1 : txnEn (Machine.hostTransaction i) = i.hostEn := by
    simp only [txnEn, bit, BitVec.getLsbD_append]; simp
  have h2 : txnWe (Machine.hostTransaction i) = i.hostWe := by
    simp only [txnWe, bit, BitVec.getLsbD_append]; simp
  have h3 : txnAddr (Machine.hostTransaction i) = i.hostAddr := by
    refine BitVec.eq_of_getLsbD_eq fun k hk => ?_
    simp only [txnAddr, BitVec.getLsbD_extractLsb', bit, BitVec.getLsbD_append]
    simp [hk]
  have h4 : txnWdata (Machine.hostTransaction i) = i.hostWdata := by
    refine BitVec.eq_of_getLsbD_eq fun k hk => ?_
    simp only [txnWdata, BitVec.getLsbD_extractLsb', bit]
    simp [hk]
  simp only [decodeHost, h1, h2, h3, h4]

namespace Machine

/-- The bits of STATUS, field by field (R95). -/
theorem statusWord_bit (s : State) (i : Nat) :
    s.statusWord.getLsbD i =
      if i < 1 then (BitVec.ofBool s.txBusy).getLsbD i
      else if i < 2 then (BitVec.ofBool s.frameReady).getLsbD (i - 1)
      else if i < 3 then (BitVec.ofBool s.txDone).getLsbD (i - 2)
      else if i < 4 then (BitVec.ofBool s.checkSending).getLsbD (i - 3)
      else if i < 8 then s.bo.getLsbD (i - 4)
      else if i < 12 then s.txState.code.getLsbD (i - 8)
      else if i < 14 then s.rxMode.code.getLsbD (i - 12)
      else if i < 15 then (BitVec.ofBool s.de).getLsbD (i - 14)
      else false := by
  refine Eq.trans BitVec.getLsbD_append ?_
  simp only [BitVec.getLsbD_append, Nat.sub_sub]
  repeat' split
  all_goals first | rfl | (exfalso; omega) | simp

end Machine

end Sys2Proof
end

