-- ==== Sys2Proof/Laws/PerInstr.lean ====
section
/-! SUPPORT. One lemma per instruction: the word the encoder writes for it is a word of its row of the opcode table. -/

namespace Sys2Proof.Laws.EncodeMatchesTable

/-- The encoder's word of a well-formed instruction has the row's format and the row's bits under the row's mask. -/
def Statement (i : Instr) : Prop := i.wellFormed = true → (tableRow i).matchesCode (encode i) = true

/-- A mask on the high byte of a transaction word sees EN, WE and ADDR only (30_encoding.md R90). -/
theorem high_byte_masked (we : Bool) (a : Addr) (wd : Word) (m : Nat) :
    (txnWord we a wd).toNat &&& (m <<< 16) = ((1#1 ++ BitVec.ofBool we ++ a).toNat &&& m) <<< 16 := by
  have h : (txnWord we a wd).toNat = (1#1 ++ BitVec.ofBool we ++ a).toNat <<< 16 ||| wd.toNat := BitVec.toNat_append ..
  rw [h]
  apply Nat.eq_of_testBit_eq
  intro i
  by_cases hi : 16 ≤ i
  · have : wd.toNat.testBit i = false := Nat.testBit_lt_two_pow (Nat.lt_of_lt_of_le wd.isLt (Nat.pow_le_pow_right (by omega) hi))
    simp [hi, this]
  · simp [hi]

theorem rdTxbuf (idx : BitVec 4) : Statement (.rdTxbuf idx) := by
  revert idx; unfold Statement; decide

theorem wrTxbuf (idx : BitVec 4) (data : Byte) : Statement (.wrTxbuf idx data) := by
  refine fun _ => ?_
  clear * -
  have h := high_byte_masked true (0b00#2 ++ idx) (0#8 ++ data) 0xF0
  have k : ((1#1 ++ BitVec.ofBool true ++ (0b00#2 ++ idx : Addr)).toNat &&& 0xF0) <<< 16 = 0xC00000 := by
    clear h; revert idx; decide
  exact decide_eq_true (h.trans k)

theorem rdRxbuf (idx : BitVec 4) : Statement (.rdRxbuf idx) := by
  revert idx; unfold Statement; decide

theorem wrRxbuf (idx : BitVec 4) : Statement (.wrRxbuf idx) := by
  revert idx; unfold Statement; decide

theorem rdCtrl : Statement .rdCtrl := by
  intro _; rfl

theorem wrCtrl (rxie txie send msgDone txdoneClr : Bool) : Statement (.wrCtrl rxie txie send msgDone txdoneClr) := by
  intro _; cases rxie <;> cases txie <;> cases send <;> cases msgDone <;> cases txdoneClr <;> rfl

theorem rdTxlen : Statement .rdTxlen := by
  intro _; rfl

theorem wrTxlen (len : BitVec 5) : Statement (.wrTxlen len) := by
  revert len; unfold Statement; decide

theorem rdStatus : Statement .rdStatus := by
  intro _; rfl

theorem rdTxcrc : Statement .rdTxcrc := by
  intro _; rfl

theorem rdStatSent : Statement .rdStatSent := by
  intro _; rfl

theorem rdStatRecv : Statement .rdStatRecv := by
  intro _; rfl

theorem rdStatColl : Statement .rdStatColl := by
  intro _; rfl

theorem rdStatOvf : Statement .rdStatOvf := by
  intro _; rfl

theorem wrStatus : Statement .wrStatus := by
  intro _; rfl

theorem wrTxcrc : Statement .wrTxcrc := by
  intro _; rfl

theorem wrStat (cnt : BitVec 2) : Statement (.wrStat cnt) := by
  revert cnt; unfold Statement; decide

theorem rdRsvd2x (low : BitVec 3) : Statement (.rdRsvd2x low) := by
  revert low; unfold Statement; decide

theorem rdRsvd3x (low : BitVec 4) : Statement (.rdRsvd3x low) := by
  revert low; unfold Statement; decide

theorem wrRsvd2x (low : BitVec 3) : Statement (.wrRsvd2x low) := by
  revert low; unfold Statement; decide

theorem wrRsvd3x (low : BitVec 4) : Statement (.wrRsvd3x low) := by
  revert low; unfold Statement; decide

theorem nop : Statement .nop := by
  intro _; rfl

theorem ctrlTxdoneClr : Statement .ctrlTxdoneClr := by
  intro _; rfl

theorem ctrlMsgDone : Statement .ctrlMsgDone := by
  intro _; rfl

theorem ctrlSend : Statement .ctrlSend := by
  intro _; rfl

theorem rxSync (esc : Bool) : Statement (.rxSync esc) := by
  revert esc; unfold Statement; decide

theorem rxEscPrefix : Statement .rxEscPrefix := by
  intro _; rfl

theorem rxEscaped (b : Byte) : Statement (.rxEscaped b) := by
  revert b; unfold Statement; decide

theorem rxLiteral (b : Byte) : Statement (.rxLiteral b) := by
  revert b; unfold Statement; decide

theorem txEncSync : Statement .txEncSync := by
  intro _; rfl

theorem txEncEsc : Statement .txEncEsc := by
  intro _; rfl

theorem txEncPlain (v : Byte) : Statement (.txEncPlain v) := by
  revert v; unfold Statement; decide

theorem pidLen16 (ptype : BitVec 6) : Statement (.pidLen16 ptype) := by
  revert ptype; unfold Statement; decide

theorem pidLen32 (ptype : BitVec 6) : Statement (.pidLen32 ptype) := by
  revert ptype; unfold Statement; decide

theorem pidLen48 (ptype : BitVec 6) : Statement (.pidLen48 ptype) := by
  revert ptype; unfold Statement; decide

theorem pidRsvd (ptype : BitVec 6) : Statement (.pidRsvd ptype) := by
  revert ptype; unfold Statement; decide

theorem txsIdle : Statement .txsIdle := by
  intro _; rfl

theorem txsSenseStart : Statement .txsSenseStart := by
  intro _; rfl

theorem txsSenseWait : Statement .txsSenseWait := by
  intro _; rfl

theorem txsTxBegin : Statement .txsTxBegin := by
  intro _; rfl

theorem txsTxSend : Statement .txsTxSend := by
  intro _; rfl

theorem txsTxDrain : Statement .txsTxDrain := by
  intro _; rfl

theorem txsEchoStart : Statement .txsEchoStart := by
  intro _; rfl

theorem txsEchoWait : Statement .txsEchoWait := by
  intro _; rfl

theorem txsBoIdleStart : Statement .txsBoIdleStart := by
  intro _; rfl

theorem txsBoIdleWait : Statement .txsBoIdleWait := by
  intro _; rfl

theorem txsBoRandStart : Statement .txsBoRandStart := by
  intro _; rfl

theorem txsBoRandWait : Statement .txsBoRandWait := by
  intro _; rfl

theorem txsBoCheckStart : Statement .txsBoCheckStart := by
  intro _; rfl

theorem txsBoCheckWait : Statement .txsBoCheckWait := by
  intro _; rfl

end Sys2Proof.Laws.EncodeMatchesTable
end

