-- ==== Sys2Proof/Laws/Sequencer.lean ====
section
/-! SUPPORT. What the shared steps of the transmit sequencer and of the timing monitor can do, said once (spec
43_arbiter_send.md R161 to R177, 42_timing_monitor.md R142 to R144). -/

namespace Sys2Proof.Machine

/-- The end of an idle check: wait, or disarm and go one of two ways (R162, R169, R173). -/
theorem finishIdleCheck_eq_next {busy clear : TxState} {s t : State} (h : finishIdleCheck busy clear s = .next t) :
    (s.octFlag = false ∧ t = s) ∨
      (s.octFlag = true ∧ s.edgeSeen = true ∧ t = s.requestEdgeDisarm.goTo busy) ∨
        (s.octFlag = true ∧ s.edgeSeen = false ∧ t = s.requestEdgeDisarm.goTo clear) := by
  unfold finishIdleCheck at h
  rw [next_inj] at h
  subst h
  cases h1 : s.octFlag
  · exact .inl ⟨rfl, by simp⟩
  · cases h2 : s.edgeSeen
    · exact .inr (.inr ⟨rfl, rfl, by simp⟩)
    · exact .inr (.inl ⟨rfl, rfl, by simp⟩)

/-- A wire byte handed over moves the position and the half flag only, and strobes the byte (41_frame_codec.md R127). -/
theorem nextWire_moves {s t : State} (h : nextWire s = .next t) :
    ∃ (pos : BitVec 5) (half : Bool) (w : Byte),
      t = { s with txPos := pos, txHalf := half, txStrobe := true, txByte := w } ∧
        (pos = s.txPos ∧ half = true ∨ pos = s.txPos + 1 ∧ half = false ∨
          s.txPos = 0 ∧ pos = 1 ∧ half = s.txHalf) := by
  rcases nextWire_eq_next h with ⟨hp, rfl⟩ | ⟨v, -, -, rfl⟩
  · exact ⟨1, s.txHalf, _, rfl, .inr (.inr ⟨hp, rfl, rfl⟩)⟩
  · cases hh : s.txHalf
    · cases hv : isReserved s.params v
      · exact ⟨s.txPos + 1, false, v, by simp [State.sendPlain, State.strobe, hh], .inr (.inl ⟨rfl, rfl⟩)⟩
      · exact ⟨s.txPos, true, _, rfl, .inl ⟨rfl, rfl⟩⟩
    · exact ⟨s.txPos + 1, false, _, rfl, .inr (.inl ⟨rfl, rfl⟩)⟩

/-- TX_SEND ends the attempt, waits, or hands over one wire byte (R164). -/
theorem execTxsTxSend_eq_next {s t : State} (h : execTxsTxSend s = .next t) :
    (s.collision = true ∧ t = s.collide false) ∨
      (s.collision = false ∧ s.inp.uartReady = false ∧ t = s) ∨
        (s.collision = false ∧ s.inp.uartReady = true ∧
          ∃ u, nextWire s = .next u ∧ t = if u.txPos = Config.txLastPos then u.goTo .txDrain else u) := by
  unfold execTxsTxSend at h
  split at h
  · exact .inl ⟨‹_›, (next_inj.mp h).symm⟩
  · rename_i hc
    rw [Bool.not_eq_true] at hc
    split at h
    · obtain ⟨u, hu, h⟩ := andThen_eq_next.mp h
      exact .inr (.inr ⟨hc, ‹_›, u, hu, (next_inj.mp h).symm⟩)
    · rename_i hr
      exact .inr (.inl ⟨hc, by simpa using hr, (next_inj.mp h).symm⟩)

/-- The attempt's end leaves RX out of SELF and clears `check_sending` (R177). -/
theorem endAttempt_ends (s : State) : s.endAttempt.checkSending = false ∧ s.endAttempt.rxMode ≠ .self := by
  unfold State.endAttempt
  refine ⟨rfl, ?_⟩
  simp only
  split
  · simp
  · assumption

/-- The timer either restarts, counts one, or holds (R142). -/
theorem timerStep_cases (s : State) :
    (s.reqTimerReset = true ∧ timerStep s = { s with tmrCnt := 0, octFlag := false }) ∨
      (s.reqTimerReset = false ∧ s.tmrCnt < s.params.octetTicks ∧
        timerStep s = { s with tmrCnt := s.tmrCnt + 1, octFlag := decide (s.tmrCnt + 1 = s.params.octetTicks) || s.octFlag }) ∨
        (s.reqTimerReset = false ∧ s.params.octetTicks ≤ s.tmrCnt ∧ timerStep s = s) := by
  unfold timerStep
  cases hr : s.reqTimerReset
  · by_cases hc : s.tmrCnt < s.params.octetTicks
    · refine .inr (.inl ⟨rfl, hc, ?_⟩)
      by_cases he : s.tmrCnt + 1 = s.params.octetTicks <;> simp [hc, he]
    · exact .inr (.inr ⟨rfl, Nat.not_lt.mp hc, by simp [hc]⟩)
  · exact .inl ⟨rfl, by simp⟩

/-- The monitor is armed afresh, disarmed, watches, or rests (R143, R144). -/
theorem edgeStep_cases (s : State) :
    (s.reqEdgeArm = true ∧
        edgeStep s = { s with edgeArmed := true, edgeSeen := false, linePrev := s.inp.rxLine }) ∨
      (s.reqEdgeArm = false ∧ s.reqEdgeDisarm = true ∧ edgeStep s = { s with edgeArmed := false }) ∨
        (s.reqEdgeArm = false ∧ s.reqEdgeDisarm = false ∧ s.edgeArmed = true ∧
          edgeStep s =
            { s with edgeSeen := decide (s.inp.rxLine ≠ s.linePrev) || s.edgeSeen, linePrev := s.inp.rxLine }) ∨
          (s.reqEdgeArm = false ∧ s.reqEdgeDisarm = false ∧ s.edgeArmed = false ∧ edgeStep s = s) := by
  unfold edgeStep
  cases h1 : s.reqEdgeArm
  · cases h2 : s.reqEdgeDisarm
    · cases h3 : s.edgeArmed
      · exact .inr (.inr (.inr ⟨rfl, rfl, rfl, by simp⟩))
      · refine .inr (.inr (.inl ⟨rfl, rfl, rfl, ?_⟩))
        by_cases he : s.inp.rxLine = s.linePrev <;> simp [he]
    · exact .inr (.inl ⟨rfl, rfl, by simp⟩)
  · exact .inl ⟨rfl, by simp⟩

end Sys2Proof.Machine
end

