-- ==== Sys2Proof/Tests/Slice0.lean ====
section
/-! SUPPORT. Small tests. Expected values come from spec/95_test_vectors.md (vector names in the docstrings) and from
the encoding tables of spec/30_encoding.md. The last part shows, for every statement with hypotheses, a concrete state
that meets them. -/

namespace Sys2Proof.Tests

open Sys2Proof.Machine

/-! ## Well-formedness refuses ill-formed terms -/

/-- A FRAME_SYNC is never an escaped byte (R103). -/
theorem test_wf_escaped_sync : (Instr.rxEscaped 0x7E).wellFormed = false := by decide

/-- A FRAME_SYNC is never a literal byte (R103). -/
theorem test_wf_literal_sync : (Instr.rxLiteral 0x7E).wellFormed = false := by decide

/-- A FRAME_ESC is never a literal byte (R103). -/
theorem test_wf_literal_esc : (Instr.rxLiteral 0x7D).wellFormed = false := by decide

/-- A FRAME_SYNC is never sent plain (R104). -/
theorem test_wf_plain_sync : (Instr.txEncPlain 0x7E).wellFormed = false := by decide

/-- A FRAME_ESC is never sent plain (R104). -/
theorem test_wf_plain_esc : (Instr.txEncPlain 0x7D).wellFormed = false := by decide

/-- Their neighbours are well formed: 7D is escaped as 5D (RX6), and 5E is an ordinary byte (E3). -/
theorem test_wf_accepts :
    (Instr.rxEscaped 0x7D).wellFormed = true ∧ (Instr.rxLiteral 0x5E).wellFormed = true ∧
      (Instr.txEncPlain 0x5E).wellFormed = true := by decide

/-! ## Decoding of words written out from the encoding tables -/

/-- HOST reads: EN = 1, WE = 0, ADDR in bits 21..16 (R90, R91, R93; words of section 2.5 and 3). -/
theorem test_decode_reads :
    decode (.host 0x830000) = .ok (.rdTxbuf 3) ∧ decode (.host 0x950000) = .ok (.rdRxbuf 5) ∧
      decode (.host 0xA00000) = .ok .rdCtrl ∧ decode (.host 0xA10000) = .ok .rdTxlen ∧
      decode (.host 0xA20000) = .ok .rdStatus ∧ decode (.host 0xA30000) = .ok .rdTxcrc ∧
      decode (.host 0xA40000) = .ok .rdStatSent ∧ decode (.host 0xA50000) = .ok .rdStatRecv ∧
      decode (.host 0xA60000) = .ok .rdStatColl ∧ decode (.host 0xA70000) = .ok .rdStatOvf ∧
      decode (.host 0xA80000) = .ok (.rdRsvd2x 0) ∧ decode (.host 0xAF0000) = .ok (.rdRsvd2x 7) ∧
      decode (.host 0xBF0000) = .ok (.rdRsvd3x 0xF) := by decide

/-- HOST writes: EN = 1, WE = 1 (R90, R91, R93, R94; words of section 2.5 and 3). -/
theorem test_decode_writes :
    decode (.host 0xC31242) = .ok (.wrTxbuf 3 0x42) ∧ decode (.host 0xD000FF) = .ok (.wrRxbuf 0) ∧
      decode (.host 0xE00102) = .ok (.wrCtrl false true true false false) ∧
      decode (.host 0xE00201) = .ok (.wrCtrl true false false true false) ∧
      decode (.host 0xE00400) = .ok (.wrCtrl false false false false true) ∧
      decode (.host 0xE0FFFC) = .ok (.wrCtrl false false true true true) ∧
      decode (.host 0xE1FFFF) = .ok (.wrTxlen 31) ∧ decode (.host 0xE2FFFF) = .ok .wrStatus ∧
      decode (.host 0xE30001) = .ok .wrTxcrc ∧ decode (.host 0xE61234) = .ok (.wrStat 2) ∧
      decode (.host 0xE90000) = .ok (.wrRsvd2x 1) ∧ decode (.host 0xF0FFFF) = .ok (.wrRsvd3x 0) := by decide

/-- NOP: EN = 0, every other bit ignored (R90, R97). -/
theorem test_decode_nop : decode (.host 0x000000) = .ok .nop ∧ decode (.host 0x7FFFFF) = .ok .nop := by decide

/-- CTRLCMD: one command bit of CTRL each (R94). -/
theorem test_decode_commands :
    decode (.ctrlCmd 0x0400) = .ok .ctrlTxdoneClr ∧ decode (.ctrlCmd 0x0200) = .ok .ctrlMsgDone ∧
      decode (.ctrlCmd 0x0102) = .ok .ctrlSend ∧ decode (.ctrlCmd 0x0003) = .error .noCommand ∧
      decode (.ctrlCmd 0x0300) = .error .severalCommands ∧
      decodeCommands 0xFFFC = [.ctrlTxdoneClr, .ctrlMsgDone, .ctrlSend] := by decide

/-- RXSYM: bit 8 is `rx_esc`; SYNC, ESC_PREFIX, ESCAPED, LITERAL in this order (R103). -/
theorem test_decode_symbols :
    decode (.rxSym 0x07E) = .ok (.rxSync false) ∧ decode (.rxSym 0x17E) = .ok (.rxSync true) ∧
      decode (.rxSym 0x07D) = .ok .rxEscPrefix ∧ decode (.rxSym 0x17D) = .ok (.rxEscaped 0x7D) ∧
      decode (.rxSym 0x15E) = .ok (.rxEscaped 0x5E) ∧ decode (.rxSym 0x041) = .ok (.rxLiteral 0x41) := by decide

/-- TXENC: SYNC, ESC, PLAIN (R104). -/
theorem test_decode_encoder_rows :
    decode (.txEnc 0x7E) = .ok .txEncSync ∧ decode (.txEnc 0x7D) = .ok .txEncEsc ∧
      decode (.txEnc 0x20) = .ok (.txEncPlain 0x20) := by decide

/-- PID: LEN_CLASS in bits 7..6, PTYPE in bits 5..0 (R100, R101). -/
theorem test_decode_pid :
    decode (.pid 0x01) = .ok (.pidLen16 1) ∧ decode (.pid 0x41) = .ok (.pidLen32 1) ∧
      decode (.pid 0x86) = .ok (.pidLen48 6) ∧ decode (.pid 0xC1) = .ok (.pidRsvd 1) := by decide

/-- TXSTATE: the codes of R108; 14 and 15 are reserved (R107). -/
theorem test_decode_states :
    decode (.txState 0) = .ok .txsIdle ∧ decode (.txState 1) = .ok .txsSenseStart ∧
      decode (.txState 2) = .ok .txsSenseWait ∧ decode (.txState 3) = .ok .txsTxBegin ∧
      decode (.txState 4) = .ok .txsTxSend ∧ decode (.txState 5) = .ok .txsTxDrain ∧
      decode (.txState 6) = .ok .txsEchoStart ∧ decode (.txState 7) = .ok .txsEchoWait ∧
      decode (.txState 8) = .ok .txsBoIdleStart ∧ decode (.txState 9) = .ok .txsBoIdleWait ∧
      decode (.txState 10) = .ok .txsBoRandStart ∧ decode (.txState 11) = .ok .txsBoRandWait ∧
      decode (.txState 12) = .ok .txsBoCheckStart ∧ decode (.txState 13) = .ok .txsBoCheckWait ∧
      decode (.txState 14) = .error (.reservedTxState 14) ∧
      decode (.txState 15) = .error (.reservedTxState 15) := by decide

/-- A bare word of the opcode table, its format guessed from its width and value (log 5). -/
theorem test_decode_table_words :
    decodeTableWord 24 0xA20000 = some .rdStatus ∧ decodeTableWord 16 0x0100 = some .ctrlSend ∧
      decodeTableWord 16 0x007E = some (.rxSync false) ∧ decodeTableWord 8 0x7D = some .txEncEsc ∧
      decodeTableWord 8 0xC0 = some (.pidRsvd 0) ∧ decodeTableWord 8 0x0B = some .txsBoRandWait := by decide

/-! ## Helpers -/

/-- The default parameters with OCTET_TICKS = 4, the value the programs of 95_test_vectors.md use. -/
def params4 : Params := { octetTicks := 4, baud := 9600 }

/-- The state after reset of that machine, and quiet inputs. -/
def base : State := { State.resetWith params4 with feed := [Inputs.quiet] }

/-- An outcome that is a next state with a property. -/
def holds (r : Result) (p : State → Bool) : Bool :=
  match r with
  | .next s => p s
  | .fault _ => false
  | .refused _ => false

/-- A buffer of a few given bytes and zeros. -/
def buf (l : List Byte) : Buf := Vector.ofFn fun k => l.getD k.val 0

/-- The payload of section 8 of the source (W1). -/
def w1 : Buf := buf [0x01, 0x02, 0x03, 0x04, 0x05, 0x06]

/-- The payload of P2 after padding (E4). -/
def e4 : Buf := buf [0x01, 0x7E, 0x7D, 0x10, 0x20]

/-- The start of the SELF vectors of section 2.3. -/
def selfBase : State := { base with checkSending := true, txbuf := e4, txcrc := 0x6001 }

/-! ## Frame codec (sections 2.1 and 2.2) -/

/-- `crc_update(0xFFFF, 0x01)` and the two variants on 0x7E (R120, R122, R123). -/
theorem test_crc_update :
    crcUpdate params4 0xFFFF 0x01 = 0x1E0E ∧ crcUpdateReflected 0x1021 0xFFFF 0x7E = 0x957E ∧
      crcUpdateMsbFirst 0x1021 0xFFFF 0x7E = 0x7EA9 := by decide

/-- The CRC of the W1 payload in both variants (R121, R124). -/
theorem test_crc_w1 :
    computeCrc params4 w1 = 0xAECC ∧ computeCrc { params4 with crcReflected := false } w1 = 0xF8AC := by
  decide +kernel

/-- E4: the wire frame of the P2 payload. -/
theorem test_wire_frame :
    wireFrame params4 e4 0x6001 =
      [0x7E, 0x01, 0x7D, 0x5E, 0x7D, 0x5D, 0x10, 0x20, 0, 0, 0, 0, 0, 0, 0, 0, 0, 0, 0, 0x60, 0x01] := by decide

/-! ## Host operations (section 2.5) -/

/-- Cycles 0 to 5: what the registers read after reset. -/
theorem test_reset_reads :
    holds (exec .rdCtrl base) (·.hostRdata = 0x0000) ∧ holds (exec .rdTxlen base) (·.hostRdata = 0x0010) ∧
      holds (exec .rdStatus base) (·.hostRdata = 0x0000) ∧ holds (exec .rdTxcrc base) (·.hostRdata = 0x0000) ∧
      holds (exec (.rdRsvd3x 0xF) base) (·.hostRdata = 0) ∧ holds (exec (.rdRsvd2x 0) base) (·.hostRdata = 0) := by
  decide

/-- Cycles 6 and 7: WR_TXBUF keeps the low byte, RD_TXBUF reads it back. -/
theorem test_txbuf :
    holds (exec (.wrTxbuf 3 0x42) base) (fun s => holds (exec (.rdTxbuf 3) s) (·.hostRdata = 0x0042)) := by decide

/-- H3: while a send is running WR_TXBUF is dropped. -/
theorem test_txbuf_busy :
    holds (exec (.wrTxbuf 0 0x55) { base with txState := .senseWait }) (·.txbuf = base.txbuf) := by decide

/-- RD_RXBUF: frame byte 5 of P1. -/
theorem test_rxbuf : holds (exec (.rdRxbuf 5) { base with rxbuf := w1 }) (·.hostRdata = 0x0006) := by decide

/-- Cycles 10 and 11: WR_RXBUF has no effect. -/
theorem test_wr_rxbuf : holds (exec (.wrRxbuf 0) base) (·.rxbuf = base.rxbuf) := by decide

/-- Cycles 8 and 9: TXLEN stores five bits. -/
theorem test_txlen :
    holds (exec (.wrTxlen 31) base) (fun s => holds (exec .rdTxlen s) (·.hostRdata = 0x001F)) := by decide

/-- The counters read what they hold (R244 to R247). -/
theorem test_counters :
    let s := { base with statSent := 1, statRecv := 2, statColl := 3, statOvf := 4 }
    holds (exec .rdStatSent s) (·.hostRdata = 1) ∧ holds (exec .rdStatRecv s) (·.hostRdata = 2) ∧
      holds (exec .rdStatColl s) (·.hostRdata = 3) ∧ holds (exec .rdStatOvf s) (·.hostRdata = 4) := by decide

/-- Cycles 12 to 17: writes to read-only and reserved addresses, and NOP, change no register. -/
theorem test_no_effect :
    holds (exec .wrStatus base) (· = base) ∧ holds (exec .wrTxcrc base) (· = base) ∧
      holds (exec (.wrStat 2) base) (· = base) ∧ holds (exec (.wrRsvd2x 1) base) (· = base) ∧
      holds (exec (.wrRsvd3x 0) base) (· = base) ∧ holds (exec .nop base) (· = base) := by decide

/-- P3, cycle 50: STATUS of BO_RAND_WAIT with `bo` = 1 reads 0x0B11; P2, cycle 30: 0x5409. -/
theorem test_status :
    holds (exec .rdStatus { base with txState := .boRandWait, bo := 1 }) (·.hostRdata = 0x0B11) ∧
      holds (exec .rdStatus { base with txState := .txSend, checkSending := true, rxMode := .self, de := true })
        (·.hostRdata = 0x5409) := by decide

/-- H4: the command bits of CTRL read 0. -/
theorem test_ctrl :
    holds (exec (.wrCtrl true true true false false) base) (fun s => holds (exec .rdCtrl s) (·.hostRdata = 0x0003)) := by
  decide

/-- Cycle 18: `WR CTRL, 0xFFFC` runs all three commands; TXCRC becomes 0x385D. -/
theorem test_ctrl_all :
    holds (exec (.wrCtrl false false true true true) { base with txbuf := buf [0, 0, 0, 0x42], txlen := 31, txDone := true, frameReady := true })
      (fun s => decide (s.txcrc = 0x385D ∧ s.txState = .senseStart ∧ s.txDone = false ∧ s.frameReady = false)) := by
  decide +kernel

/-- The two clearing commands (R237, R238). -/
theorem test_clear :
    holds (exec .ctrlTxdoneClr { base with txDone := true }) (fun s => !s.txDone) ∧
      holds (exec .ctrlMsgDone { base with frameReady := true }) (fun s => !s.frameReady) := by decide

/-- H1: `TXLEN` = 0 zeroes the whole buffer; its CRC is 0x5056. -/
theorem test_send_pads :
    holds (exec .ctrlSend { base with txlen := 0, txbuf := Vector.replicate 16 0xFF })
      (fun s => decide (s.txbuf = Vector.replicate 16 0 ∧ s.txcrc = 0x5056)) := by
  decide +kernel

/-- H3: a second SEND leaves `bo` and TXCRC as they are. -/
theorem test_send_busy :
    holds (exec .ctrlSend { base with txState := .senseWait, bo := 3 }) (fun s => decide (s.bo = 3 ∧ s.txcrc = 0)) := by
  decide

/-! ## Receive path (section 2.3) -/

/-- RX1: a byte before any SYNC is ignored. -/
theorem test_rx1 : holds (exec (.rxLiteral 0x41) base) (· = base) := by decide

/-- RX3: the first data byte is stored and summed. -/
theorem test_rx3 :
    holds (receiveAll [0x7E, 0x01] base)
      (fun s => decide (s.rxMode = .store ∧ s.rxIdx = 1 ∧ s.rxCrc = 0x1E0E ∧ s.rxbuf[0] = 0x01)) := by decide

/-- RX4 and RX6: an escape is pending; a second 7D after it is data, 5D. -/
theorem test_rx6 :
    holds (receiveAll [0x7E, 0x01, 0x7D] base) (fun s => decide (s.rxIdx = 1 ∧ s.rxEsc = true)) ∧
      holds (receiveAll [0x7E, 0x01, 0x7D, 0x7D] base)
        (fun s => decide (s.rxIdx = 2 ∧ s.rxEsc = false ∧ s.rxCrc = 0x6000 ∧ s.rxbuf[1] = 0x5D)) := by
  decide +kernel

/-- RX8: a SYNC in the middle of an escape is a collision event and a new frame. -/
theorem test_rx8 :
    holds (receiveAll [0x7E, 0x01, 0x7D, 0x7E] base)
      (fun s => decide (s.rxMode = .store ∧ s.rxIdx = 0 ∧ s.rxEsc = false ∧ s.collision = true ∧ s.statColl = 1)) := by
  decide

/-- RX10 and RX11: the mode of a frame is chosen at its SYNC. -/
theorem test_rx_mode :
    holds (exec (.rxSync false) { base with frameReady := true }) (·.rxMode = .drop) ∧
      holds (exec (.rxSync true) { base with checkSending := true }) (·.rxMode = .self) := by decide

/-- RX9 and RX9b: classes 01 and 11 are dropped, nothing counted; class 00 is stored. -/
theorem test_pid :
    let s := { base with rxMode := .store }
    holds (exec (.pidLen32 1) s) (· = base) ∧ holds (exec (.pidLen48 1) s) (· = base) ∧
      holds (exec (.pidRsvd 1) s) (· = base) ∧
      holds (exec (.pidLen16 1) s) (fun t => decide (t.rxIdx = 1 ∧ t.rxCrc = 0x1E0E ∧ t.rxbuf[0] = 0x01)) := by decide

/-- RX14: the last byte of the W1 frame is wrong: corruption. -/
theorem test_rx14 :
    holds (exec (.rxLiteral 0xCD) { base with rxMode := .store, rxIdx := 17, rxCrc := 0xAECC, rxCrchi := 0xAE })
      (fun s => decide (s.statColl = 1 ∧ s.frameReady = false ∧ s.rxMode = .listen ∧ s.rxIdx = 17)) := by decide

/-- RX12: a valid frame with the mailbox full is an overflow. -/
theorem test_rx12 :
    holds (exec (.rxLiteral 0xCC)
        { base with frameReady := true, rxMode := .drop, rxIdx := 17, rxCrc := 0xAECC, rxCrchi := 0xAE })
      (fun s => decide (s.statOvf = 1 ∧ s.statColl = 0 ∧ s.statRecv = 0 ∧ s.rxbuf = base.rxbuf)) := by decide

/-- RX16 and RX19: the echo of an escaped byte matches; a corrupted escape is a collision. -/
theorem test_rx19 :
    holds (receiveAll [0x7E, 0x01, 0x7D, 0x5E] selfBase) (fun s => decide (s.rxMode = .self ∧ s.rxIdx = 2)) ∧
      holds (receiveAll [0x7E, 0x01, 0x7D, 0x5E, 0x7D, 0x5F] selfBase)
        (fun s => decide (s.rxMode = .listen ∧ s.rxIdx = 2 ∧ s.collision = true ∧ s.statColl = 1)) := by decide

/-! ## Transmit sequencer (sections 2.2 and 2.6) -/

/-- Calls 2 and 3 of the `next_wire` trace: 7E goes out as 7D 5E. -/
theorem test_enc_sync :
    holds (exec .txEncSync { base with txPos := 1 }) (fun s => decide (s.txByte = 0x7D ∧ s.txPos = 1 ∧ s.txHalf = true)) ∧
      holds (exec .txEncSync { base with txPos := 1, txHalf := true })
        (fun s => decide (s.txByte = 0x5E ∧ s.txPos = 2 ∧ s.txHalf = false)) := by decide

/-- E2: 7D goes out as 7D 5D. -/
theorem test_enc_esc :
    holds (exec .txEncEsc { base with txPos := 3 }) (fun s => decide (s.txByte = 0x7D ∧ s.txHalf = true)) ∧
      holds (exec .txEncEsc { base with txPos := 3, txHalf := true })
        (fun s => decide (s.txByte = 0x5D ∧ s.txPos = 4 ∧ s.txHalf = false)) := by decide

/-- E3: 5E goes out unchanged. -/
theorem test_enc_plain :
    holds (exec (.txEncPlain 0x5E) { base with txPos := 2 })
      (fun s => decide (s.txStrobe = true ∧ s.txByte = 0x5E ∧ s.txPos = 3 ∧ s.txHalf = false)) := by decide

/-- IDLE does nothing (R160). -/
theorem test_idle : holds (exec .txsIdle base) (· = base) := by decide

/-- V-TX1: SEND in IDLE ends the cycle in SENSE_WAIT with the timer reset and the monitor armed. -/
theorem test_vtx1 :
    holds (step (base.present (hostInputs 0xE00102)))
      (fun s => decide (s.txState = .senseWait ∧ s.tmrCnt = 0 ∧ s.edgeArmed = true ∧ s.edgeSeen = false ∧ s.bo = 0)) := by
  decide

/-- The other two idle checks start the same way (R168, R172). -/
theorem test_idle_check_starts :
    holds (exec .txsSenseStart base) (fun s => decide (s.txState = .senseWait ∧ s.reqTimerReset ∧ s.reqEdgeArm)) ∧
      holds (exec .txsBoIdleStart base) (fun s => decide (s.txState = .boIdleWait ∧ s.reqTimerReset ∧ s.reqEdgeArm)) ∧
      holds (exec .txsBoCheckStart base) (fun s => decide (s.txState = .boCheckWait ∧ s.reqTimerReset ∧ s.reqEdgeArm)) := by
  decide

/-- V-TX2: an idle verdict leads to TX_BEGIN and disarms the monitor. -/
theorem test_vtx2 :
    holds (step { base with txState := .senseWait, octFlag := true, tmrCnt := 4, edgeArmed := true })
      (fun s => decide (s.txState = .txBegin ∧ s.edgeArmed = false)) := by decide

/-- T1, cycle 5: an edge repeats the check; BO_IDLE_WAIT likewise (R169). -/
theorem test_busy_verdicts :
    holds (exec .txsSenseWait { base with octFlag := true, edgeSeen := true }) (·.txState = .senseStart) ∧
      holds (exec .txsBoIdleWait { base with octFlag := true, edgeSeen := true }) (·.txState = .boIdleStart) ∧
      holds (exec .txsBoIdleWait { base with octFlag := true }) (·.txState = .boRandStart) := by decide

/-- V-TX12: a busy re-check goes back to a fresh draw and leaves `bo`. -/
theorem test_vtx12 :
    holds (exec .txsBoCheckWait { base with octFlag := true, edgeSeen := true, bo := 3 })
        (fun s => decide (s.txState = .boRandStart ∧ s.bo = 3)) ∧
      holds (exec .txsBoCheckWait { base with octFlag := true, bo := 3 }) (·.txState = .senseStart) := by decide

/-- TX_BEGIN clears the stale collision, turns the driver on and rewinds the encoder (R163). -/
theorem test_tx_begin :
    holds (exec .txsTxBegin { base with collision := true, echoOk := true, rxMode := .drop, txPos := 19 })
      (fun s => decide (s.collision = false ∧ s.echoOk = false ∧ s.de = true ∧ s.checkSending = true ∧
        s.rxMode = .listen ∧ s.txPos = 0 ∧ s.txState = .txSend)) := by decide

/-- V-TX3: the last wire byte goes out and TX_DRAIN follows. -/
theorem test_vtx3 :
    holds (exec .txsTxSend { selfBase with txState := .txSend, de := true, txPos := 18 })
      (fun s => decide (s.txStrobe = true ∧ s.txByte = 0x01 ∧ s.txPos = 19 ∧ s.txState = .txDrain)) := by decide

/-- V-TX10: `bo` saturates at 8 in a collision, and no byte goes out. -/
theorem test_vtx10 :
    holds (exec .txsTxSend { selfBase with txState := .txSend, de := true, collision := true, bo := 8 })
      (fun s => decide (s.bo = 8 ∧ s.de = false ∧ s.txStrobe = false ∧ s.txState = .boIdleStart)) := by decide

/-- TX_DRAIN waits for the UART and then releases the driver (R165). -/
theorem test_tx_drain :
    holds (exec .txsTxDrain { selfBase with txState := .txDrain, de := true })
      (fun s => decide (s.de = false ∧ s.txState = .echoStart)) ∧
      holds (exec .txsTxDrain ({ selfBase with txState := .txDrain, de := true }.present { Inputs.quiet with uartTxIdle := false }))
        (fun s => decide (s.de = true ∧ s.txState = .txDrain)) := by decide

/-- ECHO_START restarts the timer and the timeout (R166). -/
theorem test_echo_start :
    holds (exec .txsEchoStart { selfBase with txState := .echoStart, echoTmo := 4 })
      (fun s => decide (s.echoTmo = 0 ∧ s.reqTimerReset = true ∧ s.txState = .echoWait)) := by decide

/-- V-TX7: the fourth octet-time without echo is a collision that ECHO_WAIT counts. -/
theorem test_vtx7 :
    holds (exec .txsEchoWait { selfBase with txState := .echoWait, echoTmo := 3, octFlag := true })
      (fun s => decide (s.echoTmo = 4 ∧ s.statColl = 1 ∧ s.bo = 1 ∧ s.txState = .boIdleStart)) := by decide

/-- V-TX5: the confirmation arrives in the timeout's cycle and wins. -/
theorem test_vtx5 :
    holds
      (step ({ selfBase with
        txState := .echoWait, echoTmo := 3, octFlag := true, tmrCnt := 4, rxMode := .self, rxIdx := 17
        txcrc := 0x1234 }.present (rxInputs 0x34)))
      (fun s => decide (s.txState = .idle ∧ s.statSent = 1 ∧ s.statColl = 0 ∧ s.txDone = true)) := by decide

/-- Table BO: `bo` = 5, `rnd` = 0x0B gives 4; `bo` = 8, `rnd` = 0xFF gives 16. -/
theorem test_backoff_draw :
    holds (exec .txsBoRandStart ({ base with bo := 5 }.present { Inputs.quiet with rnd := 0x0B })) (·.boWait = 4) ∧
      holds (exec .txsBoRandStart ({ base with bo := 8 }.present { Inputs.quiet with rnd := 0xFF })) (·.boWait = 16) := by
  decide

/-- V-TX11: the last octet-time of the random wait. -/
theorem test_vtx11 :
    holds (exec .txsBoRandWait { base with boWait := 1, octFlag := true })
      (fun s => decide (s.boWait = 0 ∧ s.txState = .boCheckStart)) := by decide

/-- T1, cycles 1 and 2: the timer counts and a low level after a high one is an edge. -/
theorem test_timer_and_edge :
    holds (step ({ base with txState := .senseWait, edgeArmed := true, tmrCnt := 1 }.present { Inputs.quiet with rxLine := false }))
      (fun s => decide (s.tmrCnt = 2 ∧ s.edgeSeen = true ∧ s.linePrev = false ∧ s.octFlag = false)) := by decide

/-- RS1: a reset cycle in the middle of a send. -/
theorem test_reset_cycle :
    holds (step ({ selfBase with txState := .txSend, de := true, statSent := 7 }.present { Inputs.quiet with rst := true }))
      (fun s => decide (s.statusWord = 0 ∧ s.statSent = 0 ∧ s.txlen = 16 ∧ s.outIrq = false)) := by decide

/-- A word of the opcode table placed in the reset state runs in the very next step. -/
theorem test_place :
    holds (step (State.reset.withFetchWord 24 0xE10005)) (·.txlen = 5) ∧
      holds (step (State.reset.withFetchWord 16 0x0200)) (fun s => !s.frameReady) ∧
      holds (step (State.reset.withFetchWord 16 0x007E)) (·.rxMode = .store) ∧
      holds (step (State.reset.withFetchWord 8 0x7E)) (fun s => s.txByte = 0x7D && s.txHalf) ∧
      holds (step (State.reset.withFetchWord 8 0x41)) (·.rxMode = .listen) ∧
      holds (step (State.reset.withFetchWord 8 0x03)) (·.txState = .txSend) := by decide

/-- V-TX8: a mismatch in an ECHO_START cycle; the attempt ends in the next cycle. -/
theorem test_vtx8 :
    holds
      (step { selfBase with
        txState := .echoStart, rxMode := .self, rxIdx := 17, txcrc := 0x1234, feed := [rxInputs 0x35, Inputs.quiet] })
      (fun s => decide (s.collision = true ∧ s.statColl = 1 ∧ s.txState = .echoWait) &&
        holds (step s) (fun t => decide (t.txState = .boIdleStart ∧ t.bo = 1 ∧ t.statSent = 0))) := by decide

/-! ## Other elaborations (00_scope.md R6) -/

/-- A machine with other parameters than the defaults. -/
def otherParams : Params :=
  { octetTicks := 2, baud := 19200, frameSync := 0x55, frameEsc := 0x33, escMask := 0x0F, crcReflected := false
    crcXorOut := 0x00FF, crcInit := 0, boMax := 2, echoTimeout := 1, lenClassExpected := 0b01, statW := 4, rndW := 1 }

/-- Its reset state, and quiet inputs. -/
def otherBase : State := { State.resetWith otherParams with feed := [Inputs.quiet] }

/-- Its frame starts with its own FRAME_SYNC, unmasks with its own ESC_MASK and is of its own length class. -/
theorem test_other_receive :
    holds (receiveAll [0x55, 0x41, 0x33, 0x5A] otherBase)
      (fun s => decide (s.rxMode = .store ∧ s.rxIdx = 2 ∧ s.rxbuf[0] = 0x41 ∧ s.rxbuf[1] = 0x55)) ∧
      holds (receiveAll [0x55, 0x01] otherBase) (·.rxMode = .listen) ∧
      holds (receiveAll [0x7E] otherBase) (· = otherBase) := by decide +kernel

/-- A counter of STAT_W bits wraps; ECHO_TIMEOUT, BO_MAX and RND_W bound the sequencer. -/
theorem test_other_sequencer :
    holds (exec .txsEchoWait { otherBase with txState := .echoWait, octFlag := true, bo := 2, statColl := 15 })
        (fun s => decide (s.statColl = 0 ∧ s.bo = 2 ∧ s.txState = .boIdleStart)) ∧
      holds (exec .txsBoRandStart ({ otherBase with bo := 4 }.present { Inputs.quiet with rnd := 0xFF })) (·.boWait = 2) := by
  decide

/-! ## The application contract (45_host_interface.md R252 to R255) -/

/-- The start of a sequence on `base`, with a few known inputs. -/
def host (todo : List HostAction) (s : State) : HostRun :=
  HostRun.start todo { s with feed := List.replicate 4 Inputs.quiet }

/-- GET_MESSAGE with a frame ready goes on to read its bytes; with none it answers none after one cycle. -/
theorem test_get_message :
    (((host getMessage { base with frameReady := true, rxbuf := w1 }).run 3).map
        fun h => (h.todo.length, h.reads, h.endedNone)) = some (14, [0x01, 0x02], false) ∧
      (((host getMessage base).run 1).map fun h => (h.todo, h.answer)) = some ([], none) := by
  decide +kernel

/-- The final wait of SEND_MESSAGE by `irq`: no access while `irq` is 0, then one RD STATUS that shows TX_DONE. -/
theorem test_wait_for_irq :
    (sendMessage [] false false .irq).getLast? = some (.irqUntil 2 true) ∧
      (host FinalWait.irq.actions { base with txie := true }).operation = .nop ∧
      (((host FinalWait.irq.actions { base with txie := true, txDone := true }).run 1).map (·.todo)) = some [] ∧
      (((host FinalWait.irq.actions { base with txie := true }).run 1).map (·.todo)) = some [.irqUntil 2 true] := by
  decide +kernel

/-- SEND_MESSAGE of one byte, not waiting at its end, starts the send in its four cycles. -/
theorem test_send_message :
    (((host (sendMessage [0x42] false true .skip) base).run 4).map fun h =>
        decide (h.todo = [] ∧ h.block.txState = .senseWait ∧ h.block.txbuf = buf [0x42] ∧ h.block.txie = true)) =
      some true := by decide +kernel

/-! ## The hypotheses of the statements are met -/

/-- An outcome is a next state with a property when the test says so. -/
theorem holds_next {r : Result} {p : State → Bool} (h : holds r p = true) : ∃ t, r = .next t ∧ p t = true := by
  cases r with
  | next t => exact ⟨t, rfl, h⟩
  | fault e => cases h
  | refused e => cases h

/-- A send in TX_SEND with the frame of `base`, nothing handed over yet. -/
def sending : State :=
  { base with txState := .txSend, checkSending := true, de := true, txcrc := computeCrc params4 base.txbuf }

/-- The same send in an idle check with the timer just reset, and five known inputs. -/
def sensing : State :=
  { base with txState := .senseWait, edgeArmed := true, txcrc := computeCrc params4 base.txbuf, feed := List.replicate 5 Inputs.quiet }

/-- The echo of that send is being compared, and a byte other than the first one sent arrives. -/
def echoing : State := { sending with rxMode := .self }.present (rxInputs 0x55)

/-- V-TX8 on that send: ECHO_START, and the last byte of the echo, 0x56, arrives as 0x57. -/
def echoStarting : State :=
  { sending with txState := .echoStart, de := false, txPos := 19, rxMode := .self, rxIdx := 17 }.present (rxInputs 0x57)

/-- A cycle with a frame ready and no access. -/
def ready : State := { base with frameReady := true }

/-- Both values of CRC_REFLECTED meet it. -/
theorem witness_params4 : params4.SourceLiterals := by constructor <;> rfl

theorem witness_params_msb_first : ({ params4 with crcReflected := false } : Params).SourceLiterals := by
  constructor <;> rfl

theorem witness_inv_base : Inv base := by
  constructor
  · constructor <;> decide
  case sourceLiterals => exact witness_params4
  all_goals decide

theorem witness_inv_sending : Inv sending := by
  constructor
  · constructor <;> decide
  case crcCached => exact fun _ => rfl
  case sourceLiterals => exact witness_params4
  all_goals decide

theorem witness_inv_sensing : Inv sensing := by
  constructor
  · constructor <;> decide
  case crcCached => exact fun _ => rfl
  case sourceLiterals => exact witness_params4
  all_goals decide

theorem witness_inv_echoing : Inv echoing := by
  constructor
  · constructor <;> decide
  case crcCached => exact fun _ => rfl
  case sourceLiterals => exact witness_params4
  all_goals decide

theorem witness_inv_echoStarting : Inv echoStarting := by
  constructor
  · constructor <;> decide
  case crcCached => exact fun _ => rfl
  case sourceLiterals => exact witness_params4
  all_goals decide

theorem witness_inv_ready : Inv ready := by
  constructor
  · constructor <;> decide
  case sourceLiterals => exact witness_params4
  all_goals decide

theorem witness_DecodeOfEncodeIsIdentity :
    (Instr.rxEscaped 0x7D).wellFormed = true ∧ (Instr.rxLiteral 0x7F).wellFormed = true ∧
      (Instr.wrTxbuf 15 0xFF).wellFormed = true := by decide

/-- Both clauses with a hypothesis; also for NestedRowsAreTheDecodedRows and StuffingIsReversible. -/
theorem witness_StepRunsTheDecodedRows : base.inp.rst = false ∧ base.params.SourceLiterals := ⟨rfl, witness_params4⟩

theorem witness_ResetCycleGivesTheResetState :
    (base.present { Inputs.quiet with rst := true }).inp.rst = true := rfl

/-- Also for StepNeverStops (`base` meets the invariant) and StepKeepsTheParameters. -/
theorem witness_StepKeepsTheInvariant : Inv base ∧ ∃ t, step base = .next t :=
  ⟨witness_inv_base, (holds_next (p := fun _ => true) (by decide)).imp fun _ h => h.1⟩

/-- The lowest and the highest address, the two beside CTRL and TXLEN. -/
theorem witness_OnlyThreeRegistersTakeWrites :
    ∀ a ∈ [(0x10 : Addr), 0x1F, 0x22, 0x3F], 0x10 ≤ a.toNat ∧ a.toNat ≠ 0x20 ∧ a.toNat ≠ 0x21 := by decide

/-- Both clauses; also for SendAcceptance. -/
theorem witness_TxbufWriteOnlyInIdle : sending.txState ≠ .idle ∧ base.txState = .idle := by decide

/-- Both clauses. -/
theorem witness_ListenIgnoresAndEscapePrefix : base.rxMode = .listen ∧ echoing.rxMode ≠ .listen := by decide

/-- The first byte, the CRC high byte and the last byte of a SELF frame. -/
theorem witness_SelfComparesTheEcho :
    ({ selfBase with rxMode := .self } : State).rxMode = .self ∧
      (logicalFrame selfBase.txbuf selfBase.txcrc)[({ selfBase with rxIdx := 0 } : State).rxIdx.toNat]? = some 0x01 ∧
      (logicalFrame selfBase.txbuf selfBase.txcrc)[({ selfBase with rxIdx := 16 } : State).rxIdx.toNat]? = some 0x60 ∧
      (logicalFrame selfBase.txbuf selfBase.txcrc)[({ selfBase with rxIdx := 17 } : State).rxIdx.toNat]? = some 0x01 := by
  decide

/-- The ends of the range, in both modes; byte 0 is of length class 00. -/
theorem witness_PayloadBytesAreStoredAndSummed :
    (∃ s : State, s.rxMode = .store ∧ s.rxIdx = 0 ∧ s.rxIdx.toNat < 16 ∧ lenClass 0x01 = 0) ∧
      ∃ s : State, s.rxMode = .drop ∧ s.rxIdx ≠ 0 ∧ s.rxIdx.toNat = 15 ∧ s.rxIdx.toNat < 16 :=
  ⟨⟨{ base with rxMode := .store }, by decide⟩, ⟨{ base with rxMode := .drop, rxIdx := 15 }, by decide⟩⟩

/-- The two modes; a class that is expected and one that is not. -/
theorem witness_LengthClassFilter :
    (∃ s : State, s.rxMode = .store ∧ s.rxIdx = 0) ∧ (∃ s : State, s.rxMode = .drop ∧ s.rxIdx = 0) ∧
      0b00#2 = base.params.lenClassExpected ∧ 0b11#2 ≠ base.params.lenClassExpected :=
  ⟨⟨{ base with rxMode := .store }, by decide⟩, ⟨{ base with rxMode := .drop }, by decide⟩, by decide, by decide⟩

/-- Both clauses, in both modes; the instruction is RX_ESCAPED 0x5E with data 0x7E or RX_LITERAL with its own byte. -/
theorem witness_CrcBytesAndFrameCompletion :
    (∃ s : State, s.rxMode = .store ∧ s.rxIdx.toNat = 16) ∧ (∃ s : State, s.rxMode = .drop ∧ s.rxIdx.toNat = 17) ∧
      (0x7E : Byte) = 0x5E ^^^ 0x20 :=
  ⟨⟨{ base with rxMode := .store, rxIdx := 16 }, by decide⟩, ⟨{ base with rxMode := .drop, rxIdx := 17 }, by decide⟩,
    by decide⟩

/-- The first index past the frame and the last one the register can hold. -/
theorem witness_DataPastTheFrameIsStuck :
    (∃ s : State, s.rxMode ≠ .listen ∧ s.rxIdx.toNat = 18 ∧ 17 < s.rxIdx.toNat) ∧
      ∃ s : State, s.rxMode ≠ .listen ∧ s.rxIdx.toNat = 31 ∧ 17 < s.rxIdx.toNat :=
  ⟨⟨{ base with rxMode := .store, rxIdx := 18 }, by decide⟩, ⟨{ base with rxMode := .self, rxIdx := 31 }, by decide⟩⟩

theorem witness_FrameRoundTrip :
    base.params.SourceLiterals ∧ base.rxMode = .listen ∧ base.checkSending = false ∧ base.frameReady = false ∧
      lenClass w1[(0 : Fin 16)] = 0 :=
  ⟨witness_params4, by decide⟩

/-- The three clauses: a full mailbox, a frame of length class 01, and the echo of a send; all three states have the
parameters of `witness_params4`. -/
theorem witness_OtherWholeFrameOutcomes :
    ready.params = params4 ∧ base.params = params4 ∧ selfBase.params = params4 ∧
    (ready.rxMode = .listen ∧ ready.checkSending = false ∧ ready.frameReady = true ∧ lenClass w1[(0 : Fin 16)] = 0) ∧
      (base.rxMode = .listen ∧ base.checkSending = false ∧ lenClass (buf [0x41])[(0 : Fin 16)] ≠ 0) ∧
      (selfBase.rxMode = .listen ∧ selfBase.checkSending = true) := by decide

/-- Both parts: a state in LISTEN, and a frame after the SYNC that reaches its CRC low byte. -/
theorem witness_SyncForgetsThePartialFrame :
    base.rxMode = .listen ∧
      holds (receiveAll (base.params.frameSync :: List.replicate 17 0x00) base)
        (fun t => decide (t.rxMode = .store ∧ t.rxIdx.toNat = 17)) := by
  decide +kernel

theorem witness_SingleBitFlipsChangeTheCrc :
    params4.crcPoly = 0x1021 ∧ ({ params4 with crcReflected := false } : Params).crcPoly = 0x1021 := ⟨rfl, rfl⟩

theorem witness_FlaggedCollisionEndsTheAttempt : ({ sending with collision := true } : State).collision = true := rfl

/-- The three clauses; the third at the first and the last position of the frame. -/
theorem witness_SendHandsOverOneByte :
    sending.collision = false ∧
      (sending.present { Inputs.quiet with uartReady := false }).inp.uartReady = false ∧
      (sending.inp.uartReady = true ∧ sending.txPos = 0) ∧
      ∀ p ∈ [(1 : BitVec 5), 18], p ≠ 0 ∧ (logicalFrame e4 0x6001)[p.toNat - 1]? = some 0x01 := by decide

/-- The first position past the frame. -/
theorem witness_ByteBeyondTheFrameIsStuck :
    ∃ s : State, s.txState = .txSend ∧ s.collision = false ∧ s.inp.uartReady = true ∧ 18 < s.txPos.toNat :=
  ⟨{ sending with txPos := 19 }, by decide⟩

theorem witness_SendHandsOverTheWireFrame :
    sending.txState = .txSend ∧ sending.txPos = 0 ∧ sending.txHalf = false ∧ sending.collision = false ∧
      sending.inp.uartReady = true := by decide

/-- The ends of the range of `bo`. -/
theorem witness_BackoffDraw : base.bo.toNat = 0 ∧ ({ base with bo := 8 } : State).bo.toNat ≤ 8 := by decide

/-- The smallest OCTET_TICKS. -/
theorem witness_OctetFlagAfterOctetTicks :
    1 ≤ ({ base with params := { params4 with octetTicks := 1 } } : State).params.octetTicks := by decide

theorem witness_IdleCheckTakesOctetTicksPlusOne :
    Inv sensing ∧ sensing.txState.checkingIdle = true ∧ sensing.tmrCnt = 0 ∧
      sensing.params.octetTicks + 1 ≤ sensing.feed.length ∧ ∀ i ∈ sensing.feed, i.rst = false :=
  ⟨witness_inv_sensing, by decide⟩

theorem witness_HostReadSeesThePreviousCycle :
    ∃ s t : State, s.inp.rst = false ∧ s.inp.hostEn = true ∧ s.inp.hostWe = false ∧ step s = .next t := by
  obtain ⟨t, h, -⟩ := holds_next (r := step (base.present (hostInputs 0xA20000))) (p := fun _ => true) (by decide)
  exact ⟨base.present (hostInputs 0xA20000), t, by decide, by decide, by decide, h⟩

theorem witness_SendIsVisibleInTheNextCycle :
    ∃ s t : State, s.inp.rst = false ∧ s.txState = .idle ∧
      decodeHost (hostTransaction s.inp) = .wrCtrl false true true false false ∧ step s = .next t := by
  obtain ⟨t, h, -⟩ := holds_next (r := step (base.present (hostInputs 0xE00102))) (p := fun _ => true) (by decide)
  exact ⟨base.present (hostInputs 0xE00102), t, by decide, by decide, by decide, h⟩

/-- A SEND and seven more cycles, OCTET_TICKS being 4. -/
theorem witness_QuietLineSendStrobesTheSync :
    let s := { base with feed := hostInputs 0xE00102 :: List.replicate 7 Inputs.quiet }
    Inv s ∧ s.txState = .idle ∧ s.params.octetTicks + 4 ≤ s.feed.length ∧
      decodeHost (hostTransaction s.inp) = .wrCtrl false true true false false ∧
      ∀ i ∈ s.feed, i.rst = false ∧ i.rxLine = true ∧ i.uartReady = true := by
  refine ⟨?_, by decide⟩
  constructor
  · constructor <;> decide
  case sourceLiterals => exact witness_params4
  all_goals decide

theorem witness_OutboundFrameIsStable : ∃ t, sending.inp.rst = false ∧ sending.txState ≠ .idle ∧ step sending = .next t := by
  obtain ⟨t, h, -⟩ := holds_next (r := step sending) (p := fun _ => true) (by decide)
  exact ⟨t, by decide, by decide, h⟩

/-- The send that V-TX5 ends. -/
theorem witness_OnlySuccessEndsASend :
    ∃ s t : State, s.inp.rst = false ∧ s.txState ≠ .idle ∧ step s = .next t ∧ t.txState = .idle := by
  obtain ⟨t, h, ht⟩ :=
    holds_next (r := step { selfBase with txState := .echoWait, echoOk := true }) (p := fun t => decide (t.txState = .idle))
      (by decide)
  exact ⟨_, t, by decide, by decide, h, of_decide_eq_true ht⟩

theorem witness_MailboxBelongsToTheHost :
    ∃ t, Inv ready ∧ ready.inp.rst = false ∧ ready.frameReady = true ∧
      decodeHost (hostTransaction ready.inp) = .nop ∧ step ready = .next t := by
  obtain ⟨t, h, -⟩ := holds_next (r := step ready) (p := fun _ => true) (by decide)
  exact ⟨t, witness_inv_ready, by decide, by decide, by decide, h⟩

theorem witness_CountersStepByAtMostOne : ∃ t, Inv sending ∧ sending.inp.rst = false ∧ step sending = .next t := by
  obtain ⟨t, h, -⟩ := holds_next (r := step sending) (p := fun _ => true) (by decide)
  exact ⟨t, witness_inv_sending, by decide, h⟩

/-- In TX_SEND at the first byte, and in ECHO_START at the last one (V-TX8) with no reset in the next cycle. -/
theorem witness_EchoMismatchAborts :
    (Inv echoing ∧ echoing.inp.rst = false ∧ echoing.rxMode = .self ∧ echoing.inp.rxValid = true ∧
      decodeSymbol echoing.params echoing.inp.rxByte echoing.rxEsc = (.data 0x55, false) ∧
      (logicalFrame echoing.txbuf echoing.txcrc)[echoing.rxIdx.toNat]? = some 0 ∧ (0x55 : Byte) ≠ 0 ∧
      echoing.txState ≠ .echoStart) ∧
      (Inv echoStarting ∧ echoStarting.inp.rst = false ∧ echoStarting.rxMode = .self ∧
        echoStarting.inp.rxValid = true ∧
        decodeSymbol echoStarting.params echoStarting.inp.rxByte echoStarting.rxEsc = (.data 0x57, false) ∧
        (logicalFrame echoStarting.txbuf echoStarting.txcrc)[echoStarting.rxIdx.toNat]? = some 0x56 ∧
        (0x57 : Byte) ≠ 0x56 ∧ echoStarting.txState = .echoStart) ∧
      holds (step { echoStarting with feed := [rxInputs 0x57, Inputs.quiet] }) (fun t => !t.inp.rst) :=
  ⟨⟨witness_inv_echoing, by decide⟩, ⟨witness_inv_echoStarting, by decide +kernel⟩, by decide +kernel⟩

end Sys2Proof.Tests
end

section
/-! PROOFS. The parameters and the inputs of the machine (spec 00_scope.md R6, R8, R11): each phase keeps the model's
own fields and the end of the cycle uses up one input; an elaboration is accepted exactly under R8. -/

namespace Sys2Proof.Machine

/-! ## The frames of the phases -/

/-- The HOST phase runs a HOST row, so it leaves what every HOST row leaves. -/
theorem hostPhase_keeps {s t : State} (h : hostPhase s = .next t) : HostKeeps s t :=
  exec_host_keeps (decodeHost_format _) h

/-- The RX phase receives one byte or does nothing. -/
theorem rxPhase_eq_next {s t : State} (h : rxPhase s = .next t) :
    (s.inp.rxValid = true ∧ receiveByte s.inp.rxByte s = .next t) ∨ (s.inp.rxValid = false ∧ t = s) := by
  unfold rxPhase at h
  split at h
  next hv => exact .inl ⟨hv, h⟩
  next hv => exact .inr ⟨Bool.eq_false_iff.mpr hv, (next_inj.mp h).symm⟩

/-- The RX phase leaves what a received byte leaves, also when no byte arrives. -/
theorem rxPhase_keeps {s t : State} (h : rxPhase s = .next t) : RxKeeps s t := by
  obtain ⟨-, h⟩ | ⟨-, rfl⟩ := rxPhase_eq_next h
  · exact receiveByte_keeps h
  · constructor <;> rfl

/-- The TX phase leaves what every TXSTATE row leaves: the wires it clears first are none of these fields. -/
theorem txPhase_keeps {s t : State} (h : txPhase s = .next t) : TxKeeps s t :=
  { exec_tx_keeps h with }

/-! ## The model's own fields -/

/-- The model's own three fields are the same in both states (logs 1, 2). -/
structure KeepsOwnFields (s t : State) : Prop where
  params : t.params = s.params
  feed : t.feed = s.feed
  draws : t.draws = s.draws

theorem KeepsOwnFields.trans {s t u : State} (h : KeepsOwnFields s t) (h' : KeepsOwnFields t u) :
    KeepsOwnFields s u :=
  ⟨h'.params.trans h.params, h'.feed.trans h.feed, h'.draws.trans h.draws⟩

theorem HostKeeps.ownFields {s t : State} (h : HostKeeps s t) : KeepsOwnFields s t := { h with }
theorem RxKeeps.ownFields {s t : State} (h : RxKeeps s t) : KeepsOwnFields s t := { h with }
theorem TxKeeps.ownFields {s t : State} (h : TxKeeps s t) : KeepsOwnFields s t := { h with }
theorem TmrKeeps.ownFields {s t : State} (h : TmrKeeps s t) : KeepsOwnFields s t := { h with }

/-- A step is work that leaves the model's own fields alone, then the end of the cycle: in the reset cycle (log 19)
as in the four phases. -/
theorem step_eq_advance {s t : State} (h : step s = .next t) : ∃ u, KeepsOwnFields s u ∧ t = u.advance := by
  obtain ⟨-, rfl⟩ | ⟨-, s1, s2, s3, hHost, hRx, hTx, rfl⟩ := step_eq_next.mp h
  · exact ⟨{ State.resetWith s.params with feed := s.feed, draws := s.draws }, ⟨rfl, rfl, rfl⟩, rfl⟩
  · have before : KeepsOwnFields s s3 :=
      ((hostPhase_keeps hHost).ownFields.trans (rxPhase_keeps hRx).ownFields).trans (txPhase_keeps hTx).ownFields
    exact ⟨tmrPhase s3, before.trans (tmrPhase_keeps s3).ownFields, rfl⟩

/-! ## Elaboration -/

/-- The check of an elaboration is R8's condition. -/
theorem accepted_iff (p : Params) :
    p.accepted = true ↔ 1 ≤ p.octetTicks ∧ 9600 ≤ p.baud ∧ p.baud ≤ 115200 ∧ p.payloadSize = 16 := by
  simp only [Params.accepted, Bool.and_eq_true, decide_eq_true_eq, and_assoc]

/-- Of the reset values only that of `rx_crc` depends on a parameter (70_reset_and_hazards.md R301). -/
theorem resetWith_eq (p : Params) :
    State.resetWith p = { State.reset with rxCrc := p.crcInit, params := p } := rfl

/-- This hardware's configuration meets R8 for every value of the two OPEN parameters (logs 2, 3). -/
theorem accepted_params : Config.params.accepted = true := by
  have hTicks : 1 ≤ Config.params.octetTicks := Nat.le_add_left 1 _
  have hLow : 9600 ≤ Config.params.baud := Nat.le_add_right 9600 _
  have hHigh : Config.params.baud ≤ 115200 :=
    Nat.add_le_add_left (Nat.le_of_lt_succ Config.baudAbove9600.isLt) 9600
  exact (accepted_iff _).mpr ⟨hTicks, hLow, hHigh, rfl⟩

/-! ## The statements -/

/-- Settles O12: the phases and the reset cycle keep the three fields, and `advance` is the only one to write them. -/
theorem stepKeepsTheParameters : Obligations.StepKeepsTheParameters := by
  intro s t h
  obtain ⟨u, own, rfl⟩ := step_eq_advance h
  simp [own.params, own.feed, own.draws]

/-- Settles O13: `accepted` is R8's condition, and this hardware's configuration meets it. -/
theorem elaborationRefusesOtherParameters : Obligations.ElaborationRefusesOtherParameters := by
  refine ⟨fun p => ?_, fun _ _ => rfl, rfl, rfl, if_pos accepted_params⟩
  rw [elaborate, resetWith_eq]
  exact if_congr (accepted_iff p) rfl rfl

end Sys2Proof.Machine
end

section
/-! PROOFS. The invariant through a cycle (spec 10_state.md R45). `Inv` falls into two sides that share few fields: the
sequencer's, which the RX phase does not write, and the receive path's. Both hold at every point of a cycle; what holds
only at some of its points is said before the TX phase (`BeforeTx`) and after it (`AfterTx`). -/

namespace Sys2Proof.Machine

/-! ## The parts of the invariant -/

/-- The part of `Inv` on the sequencer and the outbound frame (I2, I4 to I8). -/
structure SendSide (s : State) : Prop where
  sendingInAttempt : s.checkSending = s.txState.inAttempt
  driverOn : s.de = s.txState.driving
  boBound : s.bo.toNat ≤ s.params.boMax
  boInBackoff : s.txState.inBackoff = true → 1 ≤ s.bo.toNat
  boWaitRange : s.txState = .boRandWait → 1 ≤ s.boWait.toNat ∧ s.boWait.toNat ≤ boWindow s.bo
  txPosBound : s.txPos.toNat ≤ 19
  txHalfRange : s.txHalf = true → 1 ≤ s.txPos.toNat ∧ s.txPos.toNat ≤ 18
  sendUnfinished : s.txState = .txSend → s.txPos.toNat ≤ 18
  echoTmoBound : s.echoTmo.toNat ≤ 4 ∧ (s.txState = .echoWait → s.echoTmo.toNat < 4)
  doneWhenIdle : s.txDone = true → s.txState = .idle
  crcCached : s.txState ≠ .idle → s.txcrc = computeCrc s.params s.txbuf

/-- The part of `Inv` on the receive path (I1, I3, I9; 60_exceptions.md R272). -/
structure ReceiveSide (s : State) : Prop where
  selfMeansSending : s.rxMode = .self → s.checkSending = true
  readyNotStoring : s.frameReady = true → s.rxMode ≠ .store
  rxIdxBound : s.rxMode ≠ .listen → s.rxIdx.toNat ≤ 17
  sendingNotMailbox : s.checkSending = true → s.rxMode = .self ∨ s.rxMode = .listen

/-- What holds at every point of a cycle. -/
structure MidCycle (s : State) : Prop where
  sourceLiterals : s.params.SourceLiterals
  ticksPositive : 1 ≤ s.params.octetTicks
  sendSide : SendSide s
  receiveSide : ReceiveSide s
  timerRange : s.tmrCnt ≤ s.params.octetTicks ∧ s.octFlag = decide (s.tmrCnt = s.params.octetTicks)

/-- What holds up to the TX phase: the edge monitor is armed as the sequencer's state says. A collision that RX flagged
may still be waiting for the TX phase (43_arbiter_send.md R182). -/
structure BeforeTx (s : State) : Prop extends MidCycle s where
  armedWhileChecking : s.edgeArmed = s.txState.checkingIdle

/-- Whether the monitor is armed once the TMR phase has served the requests (42_timing_monitor.md R143). -/
def State.armedNext (s : State) : Bool := if s.reqEdgeArm then true else if s.reqEdgeDisarm then false else s.edgeArmed

/-- What holds after the TX phase: no collision waits any more, and the monitor will be armed as the new state says. -/
structure AfterTx (s : State) : Prop extends MidCycle s where
  drivingNoCollision : s.txState.driving = true → s.collision = false
  armedNext : s.armedNext = s.txState.checkingIdle

/-- The invariant at the end of a cycle holds at the start of the next one. -/
theorem Inv.beforeTx {s : State} (h : Inv s) : BeforeTx s :=
  { h with sendSide := { h with }, receiveSide := { h with } }

/-- The parts make up the invariant: I5 is I2 and I4 in IDLE. -/
theorem BeforeTx.inv {s : State} (h : BeforeTx s) (noCollision : s.txState.driving = true → s.collision = false)
    (requestsLow : s.reqTimerReset = false ∧ s.reqEdgeArm = false ∧ s.reqEdgeDisarm = false) : Inv s :=
  { h, h.sendSide, h.receiveSide with
    idleQuiet := fun idle => by rw [h.sendSide.sendingInAttempt, h.sendSide.driverOn, idle]; decide
    drivingNoCollision := noCollision
    requestsLow := requestsLow }

/-! ## Reset -/

/-- The reset state of this hardware, with any inputs to come, meets the invariant (70_reset_and_hazards.md R301). -/
theorem resetWith_inv {p : Params} (lits : p.SourceLiterals) (ticks : 1 ≤ p.octetTicks) (feed : List Inputs)
    (draws : Nat) : Inv { State.resetWith p with feed := feed, draws := draws } := by
  refine BeforeTx.inv ?_ (fun _ => rfl) ⟨rfl, rfl, rfl⟩
  constructor
  · constructor
    case sourceLiterals => exact lits
    case ticksPositive => exact ticks
    case sendSide =>
      constructor
      case boBound => exact Nat.zero_le _
      all_goals simp [State.resetWith, TxState.inAttempt, TxState.driving, TxState.inBackoff]
    case receiveSide => constructor <;> simp [State.resetWith]
    case timerRange => exact ⟨Nat.zero_le _, (decide_eq_false (Nat.ne_of_lt ticks)).symm⟩
  · rfl

/-- The end of a cycle keeps the invariant: no part of it is about the inputs. -/
theorem Inv.advance {s : State} (h : Inv s) : Inv s.advance :=
  BeforeTx.inv { h.beforeTx with sendSide := { h with }, receiveSide := { h with } } h.drivingNoCollision h.requestsLow

/-! ## HOST -/

/-- In IDLE a HOST row keeps the sequencer's side: it leaves the sequencer in IDLE or accepts a SEND, which clears `bo`
and `TX_DONE` and caches the CRC (45_host_interface.md R239). -/
theorem exec_host_idle_sendSide {i : Instr} (hi : (tableRow i).format = .host) {s t : State} (h : SendSide s)
    (idle : s.txState = .idle) (he : exec i s = .next t) : SendSide t := by
  have k := exec_host_keeps hi he
  have bound := h.boBound
  have outcome : (t.txState = .idle ∨ t.txState = .senseStart) ∧ t.bo.toNat ≤ s.params.boMax ∧
      (t.txDone = true → t.txState = .idle) ∧ (t.txState ≠ .idle → t.txcrc = computeCrc s.params t.txbuf) := by
    obtain ⟨state, bo, -⟩ | ⟨state, bo, done, crc⟩ := exec_host_idle hi idle he
    · simp [state, bo, bound]
    · simp [state, bo, done, crc]
  obtain ⟨state, bo, done, crc⟩ := outcome
  constructor
  case sendingInAttempt =>
    rw [k.checkSending, h.sendingInAttempt, idle]
    obtain state | state := state <;> simp [state, TxState.inAttempt]
  case driverOn =>
    rw [k.de, h.driverOn, idle]
    obtain state | state := state <;> simp [state, TxState.driving]
  case boBound => rw [k.params]; exact bo
  case txPosBound => rw [k.txPos]; exact h.txPosBound
  case txHalfRange => rw [k.txPos, k.txHalf]; exact h.txHalfRange
  case echoTmoBound =>
    rw [k.echoTmo]
    exact ⟨h.echoTmoBound.1, by obtain state | state := state <;> simp [state]⟩
  case doneWhenIdle => exact done
  case crcCached => rw [k.params]; exact crc
  all_goals obtain state | state := state <;> simp [state, TxState.inBackoff]

/-- While a send is running a HOST row can write of the sequencer's side only `TX_DONE`, which is 0 then (R237). -/
theorem exec_host_busy_sendSide {i : Instr} (hi : (tableRow i).format = .host) {s t : State} (h : SendSide s)
    (busy : s.txState ≠ .idle) (he : exec i s = .next t) : SendSide t := by
  obtain ⟨buf, crc, bo, state, done⟩ := exec_host_busy hi busy he
  have low : s.txDone = false := Bool.eq_false_iff.mpr (mt h.doneWhenIdle busy)
  have notDone : t.txDone = false := done.elim (·.trans low) id
  have e := exec_host_frame hi he
  rw [buf, crc, bo, state, notDone] at e
  rw [e]
  exact { h with doneWhenIdle := by simp }

/-- A HOST row keeps the sequencer's side. -/
theorem exec_host_sendSide {i : Instr} (hi : (tableRow i).format = .host) {s t : State} (h : SendSide s)
    (he : exec i s = .next t) : SendSide t := by
  by_cases idle : s.txState = .idle
  · exact exec_host_idle_sendSide hi h idle he
  · exact exec_host_busy_sendSide hi h idle he

/-- A HOST row keeps the receive path's side: of its fields it can only clear `FRAME_READY` (R238). -/
theorem exec_host_receiveSide {i : Instr} (hi : (tableRow i).format = .host) {s t : State} (h : ReceiveSide s)
    (he : exec i s = .next t) : ReceiveSide t := by
  have k := exec_host_keeps hi he
  have ready : t.frameReady = true → s.frameReady = true := by
    obtain same | ⟨cleared, -⟩ := exec_host_frameReady hi he
    · rw [same]; exact id
    · simp [cleared]
  constructor <;> rw [k.rxMode]
  case selfMeansSending => rw [k.checkSending]; exact h.selfMeansSending
  case readyNotStoring => exact fun r => h.readyNotStoring (ready r)
  case rxIdxBound => rw [k.rxIdx]; exact h.rxIdxBound
  case sendingNotMailbox => rw [k.checkSending]; exact h.sendingNotMailbox

/-- A HOST row does not start or end an idle check. -/
theorem exec_host_checkingIdle {i : Instr} (hi : (tableRow i).format = .host) {s t : State} (he : exec i s = .next t) :
    t.txState.checkingIdle = s.txState.checkingIdle := by
  by_cases idle : s.txState = .idle
  · obtain ⟨state, -⟩ | ⟨state, -⟩ := exec_host_idle hi idle he <;> simp [state, idle, TxState.checkingIdle]
  · obtain ⟨-, -, -, state, -⟩ := exec_host_busy hi idle he
    rw [state]

/-- The HOST phase keeps what holds before the TX phase. -/
theorem hostPhase_beforeTx {s t : State} (h : BeforeTx s) (hp : hostPhase s = .next t) : BeforeTx t := by
  have host := decodeHost_format (hostTransaction s.inp)
  have k := hostPhase_keeps hp
  constructor
  · constructor
    case sourceLiterals => rw [k.params]; exact h.sourceLiterals
    case ticksPositive => rw [k.params]; exact h.ticksPositive
    case sendSide => exact exec_host_sendSide host h.sendSide hp
    case receiveSide => exact exec_host_receiveSide host h.receiveSide hp
    case timerRange => rw [k.params, k.tmrCnt, k.octFlag]; exact h.timerRange
  · rw [k.edgeArmed, exec_host_checkingIdle host hp]; exact h.armedWhileChecking

/-! ## RX -/

/-- In LISTEN the receive path's side holds. -/
theorem ReceiveSide.of_listen {s : State} (h : s.rxMode = .listen) : ReceiveSide s := by
  constructor <;> simp [h]

/-- The receive path's side allows every index in the frame. -/
theorem ReceiveSide.withIdx {s : State} (h : ReceiveSide s) {i : BitVec 5} (hi : i.toNat ≤ 17) :
    ReceiveSide { s with rxIdx := i } :=
  { h with rxIdxBound := fun _ => hi }

/-- A SYNC picks the mode that `check_sending` and `FRAME_READY` allow (44_arbiter_receive.md R201). -/
theorem syncFrame_receiveSide (s : State) : ReceiveSide s.syncFrame := by
  constructor
  case rxIdxBound => exact fun _ => Nat.zero_le 17
  all_goals
    simp only [State.syncFrame_rxMode, State.syncFrame_checkSending, State.syncFrame_frameReady, State.modeAtSync]
    cases s.checkSending <;> cases s.frameReady <;> simp

/-- The index after payload byte `i` is in the frame. -/
theorem payloadByte_receiveSide {s : State} (h : ReceiveSide s) (i : BitVec 4) (d : Byte) :
    ReceiveSide (s.payloadByte i d) := by
  have inFrame : (i.setWidth 5 + 1).toNat ≤ 17 := by revert i; decide
  exact { h.withIdx inFrame with }

/-- A data byte of a SELF frame ends it or moves to the next index (R205, R206). -/
theorem selfData_receiveSide {d : Byte} {s t : State} (h : ReceiveSide s) (self : s.rxMode = .self)
    (hd : selfData d s = .next t) : ReceiveSide t := by
  obtain ⟨e, -, rfl⟩ := selfData_eq_next hd
  obtain ⟨-, eq⟩ | ⟨-, -, eq⟩ | ⟨-, notLast, eq⟩ := selfCompare_cases s e d
  · rw [eq]; exact .of_listen rfl
  · rw [eq]; exact .of_listen rfl
  · have bound := h.rxIdxBound (by simp [self])
    rw [eq]; exact h.withIdx (by bv_omega)

/-- A data byte of a STORE or DROP frame ends it or moves to an index in the frame (R207 to R210). -/
theorem mailboxData_receiveSide {d : Byte} {s t : State} (h : ReceiveSide s) (hd : mailboxData d s = .next t) :
    ReceiveSide t := by
  obtain ⟨-, hd⟩ | ⟨-, -, rfl⟩ | ⟨-, rfl⟩ | ⟨-, rfl⟩ := mailboxData_eq_next hd
  · obtain eq | eq := firstByte_cases d s <;> rw [eq, next_inj] at hd <;> subst hd
    · exact .of_listen rfl
    · exact payloadByte_receiveSide h 0 d
  · exact payloadByte_receiveSide h _ d
  · exact { h.withIdx (i := 17) (by decide) with }
  · obtain eq | ⟨-, eq⟩ | ⟨-, eq⟩ := completeFrame_cases s d <;> rw [eq] <;> exact .of_listen rfl

/-- A received byte keeps the receive path's side. -/
theorem receiveByte_receiveSide {b : Byte} {s t : State} (h : ReceiveSide s) (hb : receiveByte b s = .next t) :
    ReceiveSide t := by
  obtain ⟨-, eq⟩ | ⟨-, eq⟩ | ⟨d, -, eq⟩ := receiveByte_cases b s <;> rw [eq] at hb
  · rw [next_inj] at hb; subst hb
    exact syncFrame_receiveSide s
  · rw [next_inj] at hb; subst hb
    split
    · exact h
    · exact { h with }
  · have cleared : ReceiveSide { s with rxEsc := false } := { h with }
    obtain ⟨-, rfl⟩ | ⟨self, hd⟩ | ⟨-, hd⟩ := receiveData_eq_next hb
    · exact h
    · exact selfData_receiveSide cleared self hd
    · exact mailboxData_receiveSide cleared hd

/-- A received byte writes nothing of the sequencer's side. -/
theorem receiveByte_sendSide {b : Byte} {s t : State} (h : SendSide s) (hb : receiveByte b s = .next t) :
    SendSide t := by
  rw [receiveByte_frame hb]; exact { h with }

/-- The RX phase keeps what holds before the TX phase. -/
theorem rxPhase_beforeTx {s t : State} (h : BeforeTx s) (hp : rxPhase s = .next t) : BeforeTx t := by
  have k := rxPhase_keeps hp
  obtain ⟨-, hb⟩ | ⟨-, rfl⟩ := rxPhase_eq_next hp
  · constructor
    · constructor
      case sourceLiterals => rw [k.params]; exact h.sourceLiterals
      case ticksPositive => rw [k.params]; exact h.ticksPositive
      case sendSide => exact receiveByte_sendSide h.sendSide hb
      case receiveSide => exact receiveByte_receiveSide h.receiveSide hb
      case timerRange => rw [k.params, k.tmrCnt, k.octFlag]; exact h.timerRange
    · rw [k.edgeArmed, k.txState]; exact h.armedWhileChecking
  · exact h

/-! ## TX -/

/-- The control states of a move that changes nothing else of the sequencer's side: both busy and outside an attempt, no
backoff that was not one before, no randomized wait begun. All idle checks start and end in such moves. -/
structure QuietMove (x y : TxState) : Prop where
  busy : x ≠ .idle ∧ y ≠ .idle
  outside : x.inAttempt = false ∧ y.inAttempt = false
  backoff : y.inBackoff = true → x.inBackoff = true
  noWait : y ≠ .boRandWait

/-- The start of an attempt (43_arbiter_send.md R163). -/
def State.beginAttempt (s : State) : State :=
  { s with
    checkSending := true, collision := false, echoOk := false, rxMode := .listen, rxIdx := 0, rxEsc := false, de := true
    txPos := 0, txHalf := false, txState := .txSend }

/-- What the row of the present control state can do, said once for all 14 rows (43_arbiter_send.md R160 to R173). -/
inductive TxMove (s : State) : State → Prop
  /-- Nothing: in IDLE, or in a wait that goes on; a waiting collision would have ended the attempt. -/
  | stay (noCollision : s.txState.driving = true → s.collision = false) : TxMove s s
  /-- R161, R168, R172. -/
  | startCheck {y : TxState} (quiet : QuietMove s.txState y) (checking : y.checkingIdle = true) :
      TxMove s (s.requestTimerReset.requestEdgeArm.goTo y)
  /-- R162, R169, R173. -/
  | endCheck {y : TxState} (quiet : QuietMove s.txState y) (checked : y.checkingIdle = false) :
      TxMove s (s.requestEdgeDisarm.goTo y)
  /-- R163. -/
  | beginAttempt (state : s.txState = .txBegin) : TxMove s s.beginAttempt
  /-- One wire byte in TX_SEND, with `next_wire`'s moves of the encoder's position (R164). -/
  | handOver {pos : BitVec 5} {half : Bool} {w : Byte} (state : s.txState = .txSend) (noCollision : s.collision = false)
      (starts : s.txPos = 0 → pos = 1)
      (moves : pos = s.txPos ∧ half = true ∨ pos = s.txPos + 1 ∧ half = false ∨
        s.txPos = 0 ∧ pos = 1 ∧ half = s.txHalf) :
      TxMove s
        { s with
          txPos := pos, txHalf := half, txStrobe := true, txByte := w
          txState := if pos = Config.txLastPos then .txDrain else .txSend }
  /-- R165. -/
  | drained (state : s.txState = .txDrain) : TxMove s { s with de := false, txState := .echoStart }
  /-- R166. -/
  | startEcho (state : s.txState = .echoStart) : TxMove s { s.requestTimerReset with echoTmo := 0, txState := .echoWait }
  /-- An octet-time of the echo wait (R167). -/
  | echoTick (state : s.txState = .echoWait) (inTime : (s.echoTmo + 1).toNat ≠ s.params.echoTimeout) :
      TxMove s { s with echoTmo := s.echoTmo + 1 }.requestTimerReset
  /-- The last octet-time of the echo wait (R167, R174). -/
  | echoTimeout (state : s.txState = .echoWait) (late : (s.echoTmo + 1).toNat = s.params.echoTimeout) :
      TxMove s ({ s with echoTmo := s.echoTmo + 1 }.collide true)
  /-- R164, R165, R167, R174. -/
  | collide (attempt : s.txState.inAttempt = true) : TxMove s (s.collide false)
  /-- R167, R175. -/
  | succeed (state : s.txState = .echoWait) : TxMove s s.succeed
  /-- R170. -/
  | draw (state : s.txState = .boRandStart) :
      TxMove s { s.requestTimerReset with boWait := boDraw s.params s.bo s.inp.rnd, txState := .boRandWait }
  /-- An octet-time of the randomized wait (R171). -/
  | boTick (state : s.txState = .boRandWait) (more : s.boWait - 1 ≠ 0) :
      TxMove s { s with boWait := s.boWait - 1 }.requestTimerReset
  /-- The last octet-time of the randomized wait (R171). -/
  | boDone (state : s.txState = .boRandWait) : TxMove s { s with boWait := s.boWait - 1, txState := .boCheckStart }

/-- The wait of an idle check goes on, or ends in one of two quiet moves out of the check (R162, R169, R173). -/
theorem finishIdleCheck_move {busy clear : TxState} {s t : State} (hf : finishIdleCheck busy clear s = .next t)
    (notDriving : s.txState.driving = false) (toBusy : QuietMove s.txState busy)
    (toClear : QuietMove s.txState clear) (checked : busy.checkingIdle = false ∧ clear.checkingIdle = false) :
    TxMove s t := by
  obtain ⟨-, rfl⟩ | ⟨-, -, rfl⟩ | ⟨-, -, rfl⟩ := finishIdleCheck_eq_next hf
  · exact .stay (by simp [notDriving])
  · exact .endCheck toBusy checked.1
  · exact .endCheck toClear checked.2

/-- The first wire byte is FRAME_SYNC, after which logical byte 0 is next (41_frame_codec.md R127). -/
theorem nextWire_starts {s t : State} (h : nextWire s = .next t) (start : s.txPos = 0) : t.txPos = 1 := by
  obtain ⟨-, rfl⟩ | ⟨_, started, -⟩ := nextWire_eq_next h
  · rfl
  · exact absurd start started

/-- TX_SEND (R164). -/
theorem execTxsTxSend_move {s t : State} (state : s.txState = .txSend) (he : execTxsTxSend s = .next t) :
    TxMove s t := by
  obtain ⟨-, rfl⟩ | ⟨noCollision, -, rfl⟩ | ⟨noCollision, -, u, hu, rfl⟩ := execTxsTxSend_eq_next he
  · exact .collide (by rw [state]; rfl)
  · exact .stay fun _ => noCollision
  · have starts := nextWire_starts hu
    obtain ⟨pos, half, w, rfl, moves⟩ := nextWire_moves hu
    have move := TxMove.handOver (w := w) state noCollision starts moves
    by_cases last : pos = Config.txLastPos <;> simpa [last, State.goTo, state] using move

/-- TX_DRAIN (R165). -/
theorem execTxsTxDrain_move {s t : State} (state : s.txState = .txDrain) (he : execTxsTxDrain s = .next t) :
    TxMove s t := by
  simp only [execTxsTxDrain, next_inj] at he
  subst he
  split
  next => exact .collide (by rw [state]; rfl)
  next noCollision =>
    split
    · exact .drained state
    · exact .stay fun _ => by simpa using noCollision

/-- ECHO_WAIT (R167). -/
theorem execTxsEchoWait_move {s t : State} (state : s.txState = .echoWait) (he : execTxsEchoWait s = .next t) :
    TxMove s t := by
  simp only [execTxsEchoWait, next_inj] at he
  subst he
  split
  · exact .collide (by rw [state]; rfl)
  · split
    · exact .succeed state
    · split
      · split
        next late => exact .echoTimeout state late
        next inTime => exact .echoTick state inTime
      · exact .stay (by simp [state, TxState.driving])

/-- BO_RAND_WAIT (R171). -/
theorem execTxsBoRandWait_move {s t : State} (state : s.txState = .boRandWait) (he : execTxsBoRandWait s = .next t) :
    TxMove s t := by
  simp only [execTxsBoRandWait, next_inj] at he
  subst he
  split
  · split
    next => exact .boDone state
    next more => exact .boTick state more
  · exact .stay (by simp [state, TxState.driving])

/-- Every row's outcome is one of the moves. -/
theorem exec_txRow_move {s t : State} (he : exec (txRow s.txState) s = .next t) : TxMove s t := by
  cases state : s.txState <;> rw [state] at he
  case idle =>
    obtain rfl := next_inj.mp he
    exact .stay (by simp [state, TxState.driving])
  case senseStart | boIdleStart | boCheckStart =>
    obtain rfl := next_inj.mp he
    refine .startCheck ?_ rfl
    rw [state]
    constructor <;> decide
  case senseWait | boIdleWait | boCheckWait =>
    refine finishIdleCheck_move he (by rw [state]; rfl) ?_ ?_ ⟨rfl, rfl⟩ <;> rw [state] <;> constructor <;> decide
  case txBegin =>
    obtain rfl := next_inj.mp he
    exact .beginAttempt state
  case txSend => exact execTxsTxSend_move state he
  case txDrain => exact execTxsTxDrain_move state he
  case echoStart =>
    obtain rfl := next_inj.mp he
    exact .startEcho state
  case echoWait => exact execTxsEchoWait_move state he
  case boRandStart =>
    obtain rfl := next_inj.mp he
    exact .draw state
  case boRandWait => exact execTxsBoRandWait_move state he

/-! ### The moves keep the sequencer's side -/

/-- While a send is running `TX_DONE` is 0, so every control state may follow. -/
theorem SendSide.doneAfter {s : State} (h : SendSide s) (busy : s.txState ≠ .idle) {y : TxState} :
    s.txDone = true → y = .idle :=
  fun done => absurd (h.doneWhenIdle done) busy

/-- The driver is on only during an attempt. -/
theorem TxState.driving_of_outside {x : TxState} (h : x.inAttempt = false) : x.driving = false := by
  cases x <;> trivial

/-- No idle check runs during an attempt. -/
theorem TxState.checkingIdle_of_inAttempt {x : TxState} (h : x.inAttempt = true) : x.checkingIdle = false := by
  cases x <;> trivial

/-- A quiet move keeps the sequencer's side, whatever `bo_wait` is set to. -/
theorem quietMove_sendSide {s : State} (h : SendSide s) {y : TxState} (quiet : QuietMove s.txState y)
    (wait : BitVec 5) : SendSide { s with boWait := wait, txState := y } := by
  obtain ⟨⟨busy, _⟩, ⟨outside, outside'⟩, backoff, noWait⟩ := quiet
  have noSend : y ≠ .txSend ∧ y ≠ .echoWait := by constructor <;> rintro rfl <;> cases outside'
  exact
    { h with
      sendingInAttempt := by rw [h.sendingInAttempt, outside, outside']
      driverOn := by rw [h.driverOn, TxState.driving_of_outside outside, TxState.driving_of_outside outside']
      boInBackoff := fun hb => h.boInBackoff (backoff hb)
      boWaitRange := fun hw => absurd hw noWait
      sendUnfinished := fun hs => absurd hs noSend.1
      echoTmoBound := ⟨h.echoTmoBound.1, fun hw => absurd hw noSend.2⟩
      doneWhenIdle := h.doneAfter busy
      crcCached := fun _ => h.crcCached busy }

/-- An attempt starts at the first wire byte, with the driver on. -/
theorem beginAttempt_sendSide {s : State} (h : SendSide s) (state : s.txState = .txBegin) : SendSide s.beginAttempt := by
  have busy : s.txState ≠ .idle := by simp [state]
  exact
    { h with
      sendingInAttempt := rfl
      driverOn := rfl
      boInBackoff := by simp [State.beginAttempt, TxState.inBackoff]
      boWaitRange := by simp [State.beginAttempt]
      txPosBound := Nat.zero_le 19
      txHalfRange := by simp [State.beginAttempt]
      sendUnfinished := fun _ => Nat.zero_le 18
      echoTmoBound := ⟨h.echoTmoBound.1, by simp [State.beginAttempt]⟩
      doneWhenIdle := h.doneAfter busy
      crcCached := fun _ => h.crcCached busy }

/-- Where the encoder stands after a wire byte (I8). -/
theorem handOver_bounds {old pos : BitVec 5} {oldHalf half : Bool} (bound : old.toNat ≤ 18)
    (range : oldHalf = true → 1 ≤ old.toNat) (starts : old = 0 → pos = 1)
    (moves : pos = old ∧ half = true ∨ pos = old + 1 ∧ half = false ∨ old = 0 ∧ pos = 1 ∧ half = oldHalf) :
    pos.toNat ≤ 19 ∧ (half = true → 1 ≤ pos.toNat ∧ pos.toNat ≤ 18) := by
  obtain ⟨rfl, -⟩ | ⟨rfl, rfl⟩ | ⟨rfl, rfl, rfl⟩ := moves
  · have : pos ≠ 0 := fun zero => absurd (starts zero) (by simp [zero])
    exact ⟨by omega, fun _ => by bv_omega⟩
  · exact ⟨by bv_omega, by simp⟩
  · exact ⟨by decide, fun _ => by decide⟩

/-- A wire byte handed over in TX_SEND; the last one ends TX_SEND. -/
theorem handOver_sendSide {s : State} (h : SendSide s) (state : s.txState = .txSend) {pos : BitVec 5} {half : Bool}
    {w : Byte} (bounds : pos.toNat ≤ 19 ∧ (half = true → 1 ≤ pos.toNat ∧ pos.toNat ≤ 18)) :
    SendSide
      { s with
        txPos := pos, txHalf := half, txStrobe := true, txByte := w
        txState := if pos = Config.txLastPos then .txDrain else .txSend } := by
  have busy : s.txState ≠ .idle := by simp [state]
  have sending := h.sendingInAttempt
  have driver := h.driverOn
  rw [state] at sending driver
  constructor
  case boBound => exact h.boBound
  case txPosBound => exact bounds.1
  case txHalfRange => exact bounds.2
  case doneWhenIdle => exact h.doneAfter busy
  case crcCached => exact fun _ => h.crcCached busy
  case echoTmoBound => exact ⟨h.echoTmoBound.1, by dsimp only; split <;> simp⟩
  case sendUnfinished =>
    dsimp only
    split
    next => simp
    next notLast =>
      have : pos.toNat ≠ 19 := fun eq => notLast (BitVec.eq_of_toNat_eq eq)
      exact fun _ => by omega
  all_goals
    dsimp only
    split <;> simp [sending, driver, TxState.inAttempt, TxState.driving, TxState.inBackoff]

/-- The frame is out: the driver goes off and the attempt goes on. -/
theorem drained_sendSide {s : State} (h : SendSide s) (state : s.txState = .txDrain) :
    SendSide { s with de := false, txState := .echoStart } := by
  have busy : s.txState ≠ .idle := by simp [state]
  exact
    { h with
      sendingInAttempt := by rw [h.sendingInAttempt, state]; rfl
      driverOn := rfl
      boInBackoff := by simp [TxState.inBackoff]
      boWaitRange := by simp
      sendUnfinished := by simp
      echoTmoBound := ⟨h.echoTmoBound.1, by simp⟩
      doneWhenIdle := h.doneAfter busy
      crcCached := fun _ => h.crcCached busy }

/-- The wait for the echo starts at 0 and goes on below ECHO_TIMEOUT (R166, R167). -/
theorem echoWait_sendSide {s : State} (h : SendSide s) (state : s.txState = .echoStart ∨ s.txState = .echoWait)
    {tmo : BitVec 3} (inTime : tmo.toNat < 4) : SendSide { s with echoTmo := tmo, txState := .echoWait } := by
  have busy : s.txState ≠ .idle := by obtain state | state := state <;> simp [state]
  exact
    { h with
      sendingInAttempt := by rw [h.sendingInAttempt]; obtain state | state := state <;> simp [state, TxState.inAttempt]
      driverOn := by rw [h.driverOn]; obtain state | state := state <;> simp [state, TxState.driving]
      boInBackoff := by simp [TxState.inBackoff]
      boWaitRange := by simp
      sendUnfinished := by simp
      echoTmoBound := ⟨Nat.le_of_lt inTime, fun _ => inTime⟩
      doneWhenIdle := h.doneAfter busy
      crcCached := fun _ => h.crcCached busy }

/-- A collision or an echo timeout goes to backoff with `bo` at least 1 (R174). -/
theorem collide_sendSide {s : State} (lits : s.params.SourceLiterals) (h : SendSide s)
    (attempt : s.txState.inAttempt = true) {tmo : BitVec 3} (range : tmo.toNat ≤ 4) (timeout : Bool) :
    SendSide ({ s with echoTmo := tmo }.collide timeout) := by
  have busy : s.txState ≠ .idle := by intro idle; rw [idle] at attempt; cases attempt
  have bo := boIncrement_toNat lits s.bo
  exact
    { h with
      sendingInAttempt := rfl
      driverOn := rfl
      boBound := by simp only [State.collide_bo, State.collide_params, bo, lits.boMax]; omega
      boInBackoff := fun _ => by simp only [State.collide_bo, bo]; omega
      boWaitRange := by simp
      sendUnfinished := by simp
      echoTmoBound := ⟨range, by simp⟩
      doneWhenIdle := h.doneAfter busy
      crcCached := fun _ => h.crcCached busy }

/-- Success goes to IDLE (R175). -/
theorem succeed_sendSide {s : State} (h : SendSide s) (state : s.txState = .echoWait) : SendSide s.succeed :=
  { h with
    sendingInAttempt := rfl
    driverOn := by rw [State.succeed_de, h.driverOn, state]; rfl
    boInBackoff := by simp [TxState.inBackoff]
    boWaitRange := by simp
    sendUnfinished := by simp
    echoTmoBound := ⟨h.echoTmoBound.1, by simp⟩
    doneWhenIdle := by simp
    crcCached := by simp }

/-- The randomized wait starts, and goes on, in the window of `bo` (I7; R170, R171). -/
theorem boRandWait_sendSide {s : State} (h : SendSide s) (state : s.txState = .boRandStart ∨ s.txState = .boRandWait)
    {wait : BitVec 5} (range : 1 ≤ wait.toNat ∧ wait.toNat ≤ boWindow s.bo) :
    SendSide { s with boWait := wait, txState := .boRandWait } := by
  have busy : s.txState ≠ .idle := by obtain state | state := state <;> simp [state]
  exact
    { h with
      sendingInAttempt := by rw [h.sendingInAttempt]; obtain state | state := state <;> simp [state, TxState.inAttempt]
      driverOn := by rw [h.driverOn]; obtain state | state := state <;> simp [state, TxState.driving]
      boInBackoff := fun _ => h.boInBackoff (by obtain state | state := state <;> simp [state, TxState.inBackoff])
      boWaitRange := fun _ => range
      sendUnfinished := by simp
      echoTmoBound := ⟨h.echoTmoBound.1, by simp⟩
      doneWhenIdle := h.doneAfter busy
      crcCached := fun _ => h.crcCached busy }

/-- Every move keeps the sequencer's side. -/
theorem TxMove.sendSide {s t : State} (lits : s.params.SourceLiterals) (h : SendSide s) (m : TxMove s t) :
    SendSide t := by
  cases m with
  | stay => exact h
  | startCheck quiet => exact { quietMove_sendSide h quiet s.boWait with }
  | endCheck quiet => exact { quietMove_sendSide h quiet s.boWait with }
  | beginAttempt state => exact beginAttempt_sendSide h state
  | handOver state _ starts moves =>
    exact handOver_sendSide h state
      (handOver_bounds (h.sendUnfinished state) (fun half => (h.txHalfRange half).1) starts moves)
  | drained state => exact drained_sendSide h state
  | startEcho state => exact { echoWait_sendSide h (.inl state) (tmo := 0) (by decide) with }
  | echoTick state inTime =>
    have before := h.echoTmoBound.2 state
    rw [lits.echoTimeout] at inTime
    have tick := echoWait_sendSide h (.inr state) (tmo := s.echoTmo + 1) (by bv_omega)
    rw [← state] at tick
    exact { tick with }
  | echoTimeout state late =>
    rw [lits.echoTimeout] at late
    exact collide_sendSide lits h (by rw [state]; rfl) (Nat.le_of_eq late) true
  | collide attempt => exact collide_sendSide lits h attempt h.echoTmoBound.1 false
  | succeed state => exact succeed_sendSide h state
  | draw state =>
    have bound := h.boBound
    rw [lits.boMax] at bound
    have drawn := boDraw_toNat s.params s.bo s.inp.rnd bound
    have inWindow := Nat.mod_lt (s.inp.rnd.toNat % 2 ^ s.params.rndW) (boWindow_pos s.bo)
    exact { boRandWait_sendSide h (.inl state) (wait := boDraw s.params s.bo s.inp.rnd) (by omega) with }
  | boTick state more =>
    have range := h.boWaitRange state
    have tick := boRandWait_sendSide h (.inr state) (wait := s.boWait - 1) (by bv_omega)
    rw [← state] at tick
    exact { tick with }
  | boDone state =>
    refine quietMove_sendSide h ?_ _
    rw [state]
    constructor <;> decide

/-! ### The moves keep the receive path's side -/

/-- The end of an attempt leaves SELF for LISTEN (R177). -/
theorem endAttempt_receiveSide {s : State} (h : ReceiveSide s) : ReceiveSide s.endAttempt := by
  by_cases self : s.rxMode = .self
  · exact .of_listen (by simp [self])
  · constructor <;> simp only [State.endAttempt_rxMode, if_neg self]
    case selfMeansSending => exact fun eq => absurd eq self
    case readyNotStoring => exact h.readyNotStoring
    case rxIdxBound => exact h.rxIdxBound
    case sendingNotMailbox => simp

/-- Every move keeps the receive path's side: only the start and the ends of an attempt write its fields. -/
theorem TxMove.receiveSide {s t : State} (h : ReceiveSide s) (m : TxMove s t) : ReceiveSide t := by
  cases m with
  | beginAttempt => exact .of_listen rfl
  | collide | echoTimeout | succeed => exact { endAttempt_receiveSide h with }
  | _ => exact { h with }

/-! ### What the moves leave for the TMR phase -/

/-- A move leaves no collision waiting while the driver is on: the sequencer has acted on it, or a fresh attempt has
cleared it (R163, R182). -/
theorem TxMove.drivingNoCollision {s t : State} (m : TxMove s t) : t.txState.driving = true → t.collision = false := by
  cases m with
  | stay noCollision => exact noCollision
  | beginAttempt => exact fun _ => rfl
  | handOver _ noCollision => exact fun _ => noCollision
  | startCheck quiet | endCheck quiet =>
    intro driving
    rw [State.goTo_txState, TxState.driving_of_outside quiet.outside.2] at driving
    cases driving
  | echoTick state | boTick state => simp [state, TxState.driving]
  | _ => simp [TxState.driving]

/-- A move arms the monitor when it starts an idle check and disarms it when it ends one (R161 to R173). -/
theorem TxMove.armedNext {s t : State} (noRequest : s.reqEdgeArm = false ∧ s.reqEdgeDisarm = false)
    (armed : s.edgeArmed = s.txState.checkingIdle) (m : TxMove s t) : t.armedNext = t.txState.checkingIdle := by
  obtain ⟨noArm, noDisarm⟩ := noRequest
  cases m with
  | stay => simp [State.armedNext, noArm, noDisarm, armed]
  | startCheck _ checking => simp [State.armedNext, checking]
  | endCheck _ checked => simp [State.armedNext, noArm, checked]
  | collide attempt =>
    rw [TxState.checkingIdle_of_inAttempt attempt] at armed
    simp [State.armedNext, noArm, noDisarm, armed, TxState.checkingIdle]
  | @handOver pos _ _ state =>
    rw [state] at armed
    by_cases last : pos = Config.txLastPos <;>
      simp [State.armedNext, noArm, noDisarm, armed, TxState.checkingIdle, last]
  | beginAttempt state | drained state | startEcho state | echoTick state | echoTimeout state | succeed state
  | draw state | boTick state | boDone state =>
    rw [state] at armed
    simp [State.armedNext, State.beginAttempt, noArm, noDisarm, armed, state, TxState.checkingIdle]

/-- The TX phase clears the requests and makes one move. -/
theorem txPhase_move {s t : State} (hp : txPhase s = .next t) : TxMove s.clearTxWires t :=
  exec_txRow_move hp

/-- The TX phase takes what holds before it to what holds after it. -/
theorem txPhase_afterTx {s t : State} (h : BeforeTx s) (hp : txPhase s = .next t) : AfterTx t := by
  have k := txPhase_keeps hp
  have move := txPhase_move hp
  constructor
  · constructor
    case sourceLiterals => rw [k.params]; exact h.sourceLiterals
    case ticksPositive => rw [k.params]; exact h.ticksPositive
    case sendSide => exact move.sendSide (s := s.clearTxWires) h.sourceLiterals { h.sendSide with }
    case receiveSide => exact move.receiveSide (s := s.clearTxWires) { h.receiveSide with }
    case timerRange => rw [k.params, k.tmrCnt, k.octFlag]; exact h.timerRange
  · exact move.drivingNoCollision
  · exact move.armedNext (s := s.clearTxWires) ⟨rfl, rfl⟩ h.armedWhileChecking

/-! ## TMR -/

/-- The octet timer stays in its range and flags its end (42_timing_monitor.md R142). -/
theorem timerStep_timerRange {s : State} (ticks : 1 ≤ s.params.octetTicks)
    (range : s.tmrCnt ≤ s.params.octetTicks ∧ s.octFlag = decide (s.tmrCnt = s.params.octetTicks)) :
    (timerStep s).tmrCnt ≤ s.params.octetTicks ∧
      (timerStep s).octFlag = decide ((timerStep s).tmrCnt = s.params.octetTicks) := by
  obtain ⟨-, eq⟩ | ⟨-, below, eq⟩ | ⟨-, -, eq⟩ := timerStep_cases s <;> rw [eq]
  · exact ⟨Nat.zero_le _, (decide_eq_false (Nat.ne_of_lt ticks)).symm⟩
  · have flagLow : s.octFlag = false := by rw [range.2]; exact decide_eq_false (Nat.ne_of_lt below)
    exact ⟨below, by simp [flagLow]⟩
  · exact range

/-- The octet timer does not touch the edge monitor. -/
theorem timerStep_armedNext (s : State) : (timerStep s).armedNext = s.armedNext := by
  obtain ⟨-, eq⟩ | ⟨-, -, eq⟩ | ⟨-, -, eq⟩ := timerStep_cases s <;> rw [eq] <;> rfl

/-- The edge monitor serves the requests and does not touch the octet timer (R143, R144). -/
theorem edgeStep_eq (s : State) :
    (edgeStep s).edgeArmed = s.armedNext ∧ (edgeStep s).tmrCnt = s.tmrCnt ∧ (edgeStep s).octFlag = s.octFlag := by
  obtain ⟨arm, eq⟩ | ⟨arm, disarm, eq⟩ | ⟨arm, disarm, armed, eq⟩ | ⟨arm, disarm, armed, eq⟩ := edgeStep_cases s <;>
    rw [eq] <;> simp [State.armedNext, *]

/-- The TMR phase completes the invariant. -/
theorem tmrPhase_inv {s : State} (h : AfterTx s) : Inv (tmrPhase s) := by
  have k := tmrPhase_keeps s
  obtain ⟨armed, cnt, flag⟩ := edgeStep_eq (timerStep s)
  have range := timerStep_timerRange h.ticksPositive h.timerRange
  have before : BeforeTx (tmrPhase s) := by
    constructor
    · constructor
      case sourceLiterals => rw [k.params]; exact h.sourceLiterals
      case ticksPositive => rw [k.params]; exact h.ticksPositive
      case sendSide => rw [tmrPhase_frame]; exact { h.sendSide with }
      case receiveSide => rw [tmrPhase_frame]; exact { h.receiveSide with }
      case timerRange => rw [← cnt, ← flag] at range; rw [k.params]; exact range
    · rw [k.txState, ← h.armedNext, ← timerStep_armedNext, ← armed]; rfl
  refine before.inv ?_ ⟨rfl, rfl, rfl⟩
  rw [k.txState, k.collision]
  exact h.drivingNoCollision

/-! ## The statements -/

/-- Settles O9: the reset state is this hardware's, with no input known. -/
theorem resetMeetsTheInvariant : Obligations.ResetMeetsTheInvariant :=
  resetWith_inv params_source (Nat.le_add_left 1 _) [] 0

/-- Settles O10: a reset cycle gives the reset state; else the invariant goes through the four phases. -/
theorem stepKeepsTheInvariant : Obligations.StepKeepsTheInvariant := by
  intro s t inv h
  obtain ⟨-, rfl⟩ | ⟨-, s1, s2, s3, hHost, hRx, hTx, rfl⟩ := step_eq_next.mp h
  · exact (resetWith_inv inv.sourceLiterals inv.ticksPositive s.feed s.draws).advance
  · have beforeTx : BeforeTx s2 := rxPhase_beforeTx (hostPhase_beforeTx inv.beforeTx hHost) hRx
    exact (tmrPhase_inv (txPhase_afterTx beforeTx hTx)).advance

end Sys2Proof.Machine
end

section
/-! PROOFS. The cycle and the register map (spec 20_memory.md R71 to R76): a cycle without reset runs the decoded rows
in phase order, a read answers the register word of the cycle's start, and of the write addresses all but those of CTRL,
TXLEN and TXBUF have no effect. -/

namespace Sys2Proof

/-! ## Addresses -/

/-- An address is its group ADDR[5:4] above its low part ADDR[3:0] (30_encoding.md R91). -/
theorem addr_toNat (a : Addr) : a.toNat = 16 * (a.extractLsb' 4 2).toNat + (a.extractLsb' 0 4).toNat := by
  have bound : a.toNat < 64 := a.isLt
  simp only [BitVec.extractLsb'_toNat, Nat.shiftRight_eq_div_pow]
  omega

/-- The read rows along the register map, in the order of its 64 addresses (30_encoding.md R93). -/
theorem decodeRead_eq_registerMap (a : Addr) :
    decodeRead a =
      if a < 0x10 then .rdTxbuf (a.extractLsb' 0 4)
      else if a < 0x20 then .rdRxbuf (a.extractLsb' 0 4)
      else if a = 0x20 then .rdCtrl
      else if a = 0x21 then .rdTxlen
      else if a = 0x22 then .rdStatus
      else if a = 0x23 then .rdTxcrc
      else if a = 0x24 then .rdStatSent
      else if a = 0x25 then .rdStatRecv
      else if a = 0x26 then .rdStatColl
      else if a = 0x27 then .rdStatOvf
      else if a < 0x30 then .rdRsvd2x (a.extractLsb' 0 3)
      else .rdRsvd3x (a.extractLsb' 0 4) := by
  revert a; decide

namespace Machine

/-! ## The rows of an access -/

/-- Two rows that answer a word, chosen by a condition, answer the word chosen by it. -/
theorem exec_ite_answer {c : Prop} [Decidable c] {i j : Instr} {s : State} {v w : HostData}
    (yes : exec i s = .next (s.answer v)) (no : exec j s = .next (s.answer w)) :
    exec (if c then i else j) s = .next (s.answer (if c then v else w)) := by
  split
  · exact yes
  · exact no

/-- The row of a read answers the register word at its address and changes nothing else (R74, R75). -/
theorem exec_decodeRead (a : Addr) (s : State) :
    exec (decodeRead a) s = .next (s.answer (s.registerWord a)) := by
  rw [decodeRead_eq_registerMap, State.registerWord]
  -- the ten kinds of address that are not reserved, in the order of the map; then the two reserved groups, which read 0
  iterate 10 refine exec_ite_answer rfl ?_
  split <;> rfl

/-- The row of a write at RXBUF, at a read-only register or at a reserved address has no effect (R76). -/
theorem exec_decodeWrite_noEffect {a : Addr} (wd : Word) (s : State) (notTxbuf : 0x10 ≤ a.toNat)
    (notCtrl : a.toNat ≠ 0x20) (notTxlen : a.toNat ≠ 0x21) :
    exec (decodeWrite a wd) s = .next (s.answer 0) := by
  have slices := addr_toNat a
  unfold decodeWrite
  split
  next group =>
    rw [group, BitVec.toNat_ofNat] at slices
    omega
  split
  · rfl
  split
  · rfl
  have group : (a.extractLsb' 4 2).toNat = 2 := by bv_omega
  rw [group] at slices
  split
  next low => exact absurd (by rw [slices, low]; rfl) notCtrl
  next low => exact absurd (by rw [slices, low]; rfl) notTxlen
  all_goals rfl

/-! ## The cycle -/

/-- A cycle without reset runs the four phases (R71). -/
theorem step_of_noReset {s : State} (noReset : s.inp.rst = false) : step s = cycle s := by
  rw [step, noReset]; rfl

/-- The HOST phase alone drives the read data of a cycle (45_host_interface.md R230). -/
theorem step_hostRdata {s t : State} (noReset : s.inp.rst = false) (h : step s = .next t) :
    ∃ u, hostPhase s = .next u ∧ t.hostRdata = u.hostRdata := by
  obtain ⟨reset, -⟩ | ⟨-, s1, s2, s3, hHost, hRx, hTx, rfl⟩ := step_eq_next.mp h
  · rw [noReset] at reset; cases reset
  · refine ⟨s1, hHost, ?_⟩
    rw [State.advance_hostRdata, (tmrPhase_keeps s3).hostRdata, (txPhase_keeps hTx).hostRdata,
      (rxPhase_keeps hRx).hostRdata]

/-- A read on the host ports runs the row of its address (30_encoding.md R90, R91). -/
theorem hostRow_of_read {s : State} (access : s.inp.hostEn = true) (read : s.inp.hostWe = false) :
    hostRow s = decodeRead s.inp.hostAddr := by
  rw [hostRow, decodeHost_hostTransaction, access, read]; rfl

/-! ## The statements -/

/-- Settles O5: a cycle's phases are these rows by definition, and the decoder answers them for the codes of
the state and of the symbol. -/
theorem stepRunsTheDecodedRows : Obligations.StepRunsTheDecodedRows :=
  ⟨fun _ noReset => step_of_noReset noReset, txRow_decodes, fun _ v lits => decodeRxSymWith_source lits v⟩

/-- Settles O18: a write transaction runs the row of its address, and the three exceptions are the only rows with an
effect. -/
theorem onlyThreeRegistersTakeWrites : Obligations.OnlyThreeRegistersTakeWrites := by
  intro a wd s notTxbuf notCtrl notTxlen
  rw [decodeHost_wrWord]
  exact exec_decodeWrite_noEffect wd s notTxbuf notCtrl notTxlen

/-- Settles O53: the HOST phase runs first, so its read sees the state at the cycle's start, and no later phase drives
the read data. -/
theorem hostReadSeesThePreviousCycle : Obligations.HostReadSeesThePreviousCycle := by
  intro s t noReset access read h
  obtain ⟨u, hHost, hData⟩ := step_hostRdata noReset h
  rw [hostPhase, hostRow_of_read access read, exec_decodeRead, next_inj] at hHost
  rw [hData, ← hHost, State.answer_hostRdata]

end Machine

end Sys2Proof
end

section
/-! PROOFS. The encodings (spec 30_encoding.md): the encoder inverts into the decoder on every row, the HOST rows
divide the transaction words among them, the priority of the received symbols, the read transactions along the register
map, the length of a frame on the wire, and the rows that run inside other rows. -/

namespace Sys2Proof

/-! ## Reads and writes of an address -/

/-- The two parts of an address put together: the group ADDR[5:4] and the low part ADDR[3:0] (R91). -/
theorem addr_parts (group : BitVec 2) (low : BitVec 4) :
    (group ++ low : Addr).extractLsb' 4 2 = group ∧ (group ++ low : Addr).extractLsb' 0 4 = low :=
  ⟨BitVec.extractLsb'_append_eq_left, BitVec.extractLsb'_append_eq_right⟩

/-! The rows of the register map, each with the address its encoder writes (R93). -/

theorem decodeRead_txbuf (idx : BitVec 4) : decodeRead (0b00#2 ++ idx) = .rdTxbuf idx := by
  obtain ⟨group, low⟩ := addr_parts 0b00#2 idx
  rw [decodeRead, group, low]; rfl

theorem decodeRead_rxbuf (idx : BitVec 4) : decodeRead (0b01#2 ++ idx) = .rdRxbuf idx := by
  obtain ⟨group, low⟩ := addr_parts 0b01#2 idx
  rw [decodeRead, group, low]; rfl

theorem decodeRead_rsvd3x (low : BitVec 4) : decodeRead (0b11#2 ++ low) = .rdRsvd3x low := by
  obtain ⟨group, low'⟩ := addr_parts 0b11#2 low
  rw [decodeRead, group, low']; rfl

theorem decodeRead_rsvd2x (low : BitVec 3) : decodeRead (0b101#3 ++ low) = .rdRsvd2x low := by
  revert low; decide

theorem decodeWrite_txbuf (idx : BitVec 4) (data : Byte) :
    decodeWrite (0b00#2 ++ idx) (0#8 ++ data) = .wrTxbuf idx data := by
  obtain ⟨group, low⟩ := addr_parts 0b00#2 idx
  have byte : (0#8 ++ data : Word).extractLsb' 0 8 = data := BitVec.extractLsb'_append_eq_right
  rw [decodeWrite, group, low, byte]; rfl

theorem decodeWrite_rxbuf (idx : BitVec 4) (wd : Word) : decodeWrite (0b01#2 ++ idx) wd = .wrRxbuf idx := by
  obtain ⟨group, low⟩ := addr_parts 0b01#2 idx
  rw [decodeWrite, group, low]; rfl

theorem decodeWrite_rsvd3x (low : BitVec 4) (wd : Word) : decodeWrite (0b11#2 ++ low) wd = .wrRsvd3x low := by
  obtain ⟨group, low'⟩ := addr_parts 0b11#2 low
  rw [decodeWrite, group, low']; rfl

theorem decodeWrite_rsvd2x (low : BitVec 3) : decodeWrite (0b101#3 ++ low) 0 = .wrRsvd2x low := by
  revert low; decide

theorem decodeWrite_stat (cnt : BitVec 2) : decodeWrite (0b1001#4 ++ cnt) 0 = .wrStat cnt := by
  revert cnt; decide

theorem decodeWrite_txlen (len : BitVec 5) : decodeWrite 0x21 (0#11 ++ len) = .wrTxlen len := by
  revert len; decide

/-- The fields of a CTRL write data word are the ones it was put together from (R94). -/
theorem decodeWrite_ctrl (rxie txie send msgDone txdoneClr : Bool) :
    decodeWrite 0x20 (ctrlWdata rxie txie send msgDone txdoneClr) = .wrCtrl rxie txie send msgDone txdoneClr := by
  revert rxie txie send msgDone txdoneClr; decide

/-- A read word decodes to the row of its address (R111). -/
theorem decode_rdWord {a : Addr} {i : Instr} (row : decodeRead a = i) : decode (.host (rdWord a)) = .ok i :=
  congrArg Except.ok ((decodeHost_rdWord a).trans row)

/-- A write word decodes to the row of its address and data (R111). -/
theorem decode_wrWord {a : Addr} {wd : Word} {i : Instr} (row : decodeWrite a wd = i) :
    decode (.host (wrWord a wd)) = .ok i :=
  congrArg Except.ok ((decodeHost_wrWord a wd).trans row)

/-! ## The other formats, by class -/

/-- A symbol is classed by its byte and its escape flag (R103). -/
theorem decode_rxSym (esc : Bool) (b : Byte) :
    decode (.rxSym (BitVec.ofBool esc ++ b)) =
      .ok (if b = Config.frameSync then .rxSync esc else if esc then .rxEscaped b
        else if b = Config.frameEsc then .rxEscPrefix else .rxLiteral b) := by
  have byte : (BitVec.ofBool esc ++ b).extractLsb' 0 8 = b := Machine.rxSymbol_byte esc b
  have flag : (BitVec.ofBool esc ++ b).getLsbD 8 = esc := Machine.rxSymbol_esc esc b
  rw [decode, decodeWith, decodeRxSymWith, byte, flag]; rfl

theorem decode_rxEscaped {b : Byte} (notSync : b ≠ Config.frameSync) :
    decode (.rxSym (1#1 ++ b)) = .ok (.rxEscaped b) := by
  refine (decode_rxSym true b).trans ?_
  rw [if_neg notSync, if_pos rfl]

theorem decode_rxLiteral {b : Byte} (notSync : b ≠ Config.frameSync) (notEsc : b ≠ Config.frameEsc) :
    decode (.rxSym (0#1 ++ b)) = .ok (.rxLiteral b) := by
  refine (decode_rxSym false b).trans ?_
  rw [if_neg notSync, if_neg Bool.false_ne_true, if_neg notEsc]

theorem decode_txEncPlain {v : Byte} (notSync : v ≠ Config.frameSync) (notEsc : v ≠ Config.frameEsc) :
    decode (.txEnc v) = .ok (.txEncPlain v) := by
  rw [Machine.decodeTxEncWith_source Machine.params_source, decodeTxEncWith]
  exact congrArg Except.ok ((if_neg notSync).trans (if_neg notEsc))

/-- The two fields of a PROTOCOL_ID byte put together (R101). -/
theorem pid_parts (cls : BitVec 2) (ptype : BitVec 6) :
    lenClass (cls ++ ptype) = cls ∧ protoType (cls ++ ptype) = ptype :=
  ⟨BitVec.extractLsb'_append_eq_left, BitVec.extractLsb'_append_eq_right⟩

/-- A PROTOCOL_ID byte is classed by its length class (R100). -/
theorem decode_pid (cls : BitVec 2) (ptype : BitVec 6) :
    decode (.pid (cls ++ ptype)) =
      .ok (if cls = 0b00#2 then .pidLen16 ptype else if cls = 0b01#2 then .pidLen32 ptype
        else if cls = 0b10#2 then .pidLen48 ptype else .pidRsvd ptype) := by
  obtain ⟨lenCls, proto⟩ := pid_parts cls ptype
  rw [decode, decodeWith, decodePid, lenCls, proto]

/-- Settles O1, by the row: a HOST row by its address, a symbol by its class, and the rows without a field by
evaluation. -/
theorem decodeOfEncodeIsIdentity : Obligations.DecodeOfEncodeIsIdentity := by
  intro i wf
  cases i with
  | rdTxbuf idx => exact decode_rdWord (decodeRead_txbuf idx)
  | rdRxbuf idx => exact decode_rdWord (decodeRead_rxbuf idx)
  | rdRsvd2x low => exact decode_rdWord (decodeRead_rsvd2x low)
  | rdRsvd3x low => exact decode_rdWord (decodeRead_rsvd3x low)
  | wrTxbuf idx data => exact decode_wrWord (decodeWrite_txbuf idx data)
  | wrRxbuf idx => exact decode_wrWord (decodeWrite_rxbuf idx 0)
  | wrCtrl rxie txie send msgDone txdoneClr =>
    exact decode_wrWord (decodeWrite_ctrl rxie txie send msgDone txdoneClr)
  | wrTxlen len => exact decode_wrWord (decodeWrite_txlen len)
  | wrStat cnt => exact decode_wrWord (decodeWrite_stat cnt)
  | wrRsvd2x low => exact decode_wrWord (decodeWrite_rsvd2x low)
  | wrRsvd3x low => exact decode_wrWord (decodeWrite_rsvd3x low 0)
  | rxSync esc => exact decode_rxSym esc Config.frameSync
  | rxEscaped b => exact decode_rxEscaped (of_decide_eq_true wf)
  | rxLiteral b =>
    obtain ⟨notSync, notEsc⟩ := Bool.and_eq_true_iff.mp wf
    exact decode_rxLiteral (of_decide_eq_true notSync) (of_decide_eq_true notEsc)
  | txEncPlain v =>
    obtain ⟨notSync, notEsc⟩ := Bool.and_eq_true_iff.mp wf
    exact decode_txEncPlain (of_decide_eq_true notSync) (of_decide_eq_true notEsc)
  | pidLen16 ptype => exact decode_pid 0b00#2 ptype
  | pidLen32 ptype => exact decode_pid 0b01#2 ptype
  | pidLen48 ptype => exact decode_pid 0b10#2 ptype
  | pidRsvd ptype => exact decode_pid 0b11#2 ptype
  | _ => rfl

/-! ## The HOST rows of the opcode table -/

/-- The HOST rows of the opcode table (R97). -/
def hostRows : List TableRow :=
  [.rdTxbuf 0, .wrTxbuf 0 0, .rdRxbuf 0, .wrRxbuf 0, .rdCtrl, .wrCtrl false false false false false, .rdTxlen,
    .wrTxlen 0, .rdStatus, .rdTxcrc, .rdStatSent, .rdStatRecv, .rdStatColl, .rdStatOvf, .wrStatus, .wrTxcrc, .wrStat 0,
    .rdRsvd2x 0, .rdRsvd3x 0, .wrRsvd2x 0, .wrRsvd3x 0, .nop].map tableRow

/-- A row does not depend on the operands, so `hostRows` holds every row of the format. -/
theorem mem_hostRows {i : Instr} (host : (tableRow i).format = .host) : tableRow i ∈ hostRows := by
  cases i <;> cases host <;> simp [hostRows, tableRow]

/-- A mask of a HOST row covers EN, WE and ADDR only, so a transaction's data does not decide its row (R110). -/
theorem hostRows_mask_high {r : TableRow} (mem : r ∈ hostRows) : r.mask = (r.mask >>> 16) <<< 16 := by
  revert r; decide

/-- No two HOST rows agree on the bits both fix. -/
theorem hostRows_disjoint :
    ∀ r ∈ hostRows, ∀ r' ∈ hostRows, r.fixed &&& r'.mask = r'.fixed &&& r.mask → r = r' := by
  decide

/-- A transaction word matches a row of the format HOST that it agrees with under the mask. -/
theorem matchesCode_host_iff {r : TableRow} {w : Txn} :
    r.matchesCode (.host w) = true ↔ r.format = .host ∧ w.toNat &&& r.mask = r.fixed := by
  rw [TableRow.matchesCode, Bool.and_eq_true, decide_eq_true_iff, decide_eq_true_iff]
  exact and_congr_left fun _ => eq_comm

/-- Two HOST rows with a word in common are one row. -/
theorem hostRow_unique {i j : Instr} {w : Txn} (hi : (tableRow i).matchesCode (.host w) = true)
    (hj : (tableRow j).matchesCode (.host w) = true) : tableRow i = tableRow j := by
  obtain ⟨hostI, bitsI⟩ := matchesCode_host_iff.mp hi
  obtain ⟨hostJ, bitsJ⟩ := matchesCode_host_iff.mp hj
  refine hostRows_disjoint _ (mem_hostRows hostI) _ (mem_hostRows hostJ) ?_
  rw [← bitsI, ← bitsJ, Nat.and_right_comm]

/-- Whether a HOST row matches an access does not depend on the access's data. -/
theorem matchesCode_txnWord {i : Instr} (host : (tableRow i).format = .host) (we : Bool) (a : Addr) (wd : Word) :
    (tableRow i).matchesCode (.host (txnWord we a wd)) = (tableRow i).matchesCode (.host (txnWord we a 0)) := by
  have masked (wd : Word) := Laws.EncodeMatchesTable.high_byte_masked we a wd ((tableRow i).mask >>> 16)
  rw [← hostRows_mask_high (mem_hostRows host)] at masked
  rw [Bool.eq_iff_iff, matchesCode_host_iff, matchesCode_host_iff, masked, masked]

/-- A transaction word with EN set is the access of its own fields (R90). -/
theorem txnWord_of_fields {w : Txn} (en : txnEn w = true) : txnWord (txnWe w) (txnAddr w) (txnWdata w) = w := by
  refine BitVec.eq_of_getLsbD_eq fun i hi => ?_
  simp only [txnWord, BitVec.getLsbD_append, txnAddr, txnWdata, BitVec.getLsbD_extractLsb']
  obtain low | addr | we | top : i < 16 ∨ (16 ≤ i ∧ i < 22) ∨ i = 22 ∨ i = 23 := by omega
  · simp [low]
  · obtain ⟨j, rfl⟩ := Nat.exists_eq_add_of_le addr.1
    simp [show j < 6 by omega]
  · subst we; simp [txnWe]
  · subst top; simpa [txnEn] using en.symm

/-- An access decodes by its direction, address and data (R91). -/
theorem decodeHost_txnWord (we : Bool) (a : Addr) (wd : Word) :
    decodeHost (txnWord we a wd) = if we then decodeWrite a wd else decodeRead a := by
  obtain ⟨en, dir, addr, data⟩ := txnWord_fields we a wd
  rw [decodeHost, en, dir, addr, data]; rfl

/-- The row of a write does not depend on its data. -/
theorem tableRow_decodeWrite (a : Addr) (wd : Word) : tableRow (decodeWrite a wd) = tableRow (decodeWrite a 0) := by
  unfold decodeWrite
  split_ifs
  iterate 3 rfl
  split <;> rfl

theorem decodeRead_row_matches (a : Addr) : (tableRow (decodeRead a)).matchesCode (.host (rdWord a)) = true := by
  revert a; decide

theorem decodeWrite_row_matches (a : Addr) :
    (tableRow (decodeWrite a 0)).matchesCode (.host (wrWord a 0)) = true := by
  revert a; decide

/-- An access matches the row it decodes to, whatever its data is. -/
theorem decodedRow_matches_access (we : Bool) (a : Addr) (wd : Word) :
    (tableRow (decodeHost (txnWord we a wd))).matchesCode (.host (txnWord we a wd)) = true := by
  rw [matchesCode_txnWord (Machine.decodeHost_format _), decodeHost_txnWord]
  cases we with
  | false => exact decodeRead_row_matches a
  | true =>
    rw [if_pos rfl, tableRow_decodeWrite]
    exact decodeWrite_row_matches a

/-- A word with EN clear matches the row of NOP. -/
theorem nopRow_matches {w : Txn} (en : txnEn w = false) : (tableRow .nop).matchesCode (.host w) = true := by
  refine matchesCode_host_iff.mpr ⟨rfl, ?_⟩
  have bit : w.toNat.testBit 23 = false := en
  have masked := Nat.and_two_pow w.toNat 23
  rwa [bit] at masked

/-- The decoder answers a row that matches the word: NOP, or the row of the access. -/
theorem decodedRow_matches (w : Txn) : (tableRow (decodeHost w)).matchesCode (.host w) = true := by
  cases en : txnEn w with
  | false =>
    rw [decodeHost, if_pos en]
    exact nopRow_matches en
  | true =>
    rw [← txnWord_of_fields en]
    exact decodedRow_matches_access _ _ _

/-- Settles O2: the decoded row matches, and rows that share a word are one row. -/
theorem everyTransactionHasExactlyOneRow : Obligations.EveryTransactionHasExactlyOneRow :=
  fun w => ⟨decodedRow_matches w, fun _ hi => hostRow_unique hi (decodedRow_matches w)⟩

/-! ## Received symbols -/

/-- A word that encodes a well-formed instruction decodes to it, and its row matches the word. -/
theorem exists_decode_of_encode {j : Instr} {c : Code}
    (h : j.wellFormed = true ∧ Laws.EncodeMatchesTable.Statement j ∧ encode j = c) :
    ∃ i : Instr, decode c = .ok i ∧ i = j ∧ i.wellFormed = true ∧ (tableRow i).matchesCode c = true := by
  obtain ⟨wf, matched, rfl⟩ := h
  exact ⟨j, decodeOfEncodeIsIdentity j wf, rfl, wf, matched wf⟩

/-- Settles O3: the first class that matches gives a well-formed instruction whose word is the symbol, so O1 decodes
it. -/
theorem symbolDecodeTakesFirstMatch : Obligations.SymbolDecodeTakesFirstMatch := by
  intro esc b
  refine exists_decode_of_encode ?_
  split
  next sync => exact ⟨rfl, Laws.EncodeMatchesTable.rxSync esc, by rw [sync]; rfl⟩
  next notSync =>
    split
    next pre => exact ⟨rfl, Laws.EncodeMatchesTable.rxEscPrefix, by rw [pre.1, pre.2]; rfl⟩
    next notPrefix =>
      split
      next escaped => exact ⟨decide_eq_true notSync, Laws.EncodeMatchesTable.rxEscaped b, by rw [escaped]; rfl⟩
      next literal =>
        rw [Bool.not_eq_true] at literal
        have notEsc : b ≠ 0x7D := fun h => notPrefix ⟨literal, h⟩
        exact ⟨Bool.and_eq_true_iff.mpr ⟨decide_eq_true notSync, decide_eq_true notEsc⟩,
          Laws.EncodeMatchesTable.rxLiteral b, by rw [literal]; rfl⟩

/-- Settles O4: each word is evaluated, the last of them a reserved code (R107). -/
theorem writtenOutWordsDecode : Obligations.WrittenOutWordsDecode :=
  ⟨rfl, rfl, rfl, rfl, rfl, rfl, rfl, rfl, rfl, rfl, rfl, rfl⟩

namespace Machine

/-! ## Read transactions -/

/-- The register map by the number of the address, and the buffers by its low four bits (R91, R93). -/
theorem registerWord_eq (a : Addr) (s : State) :
    s.registerWord a =
      if a.toNat < 0x10 then (s.txbuf[(a.setWidth 4).toFin]).setWidth 16
      else if a.toNat < 0x20 then (s.rxbuf[(a.setWidth 4).toFin]).setWidth 16
      else if a.toNat = 0x20 then s.ctrlWord
      else if a.toNat = 0x21 then s.txlen.setWidth 16
      else if a.toNat = 0x22 then s.statusWord
      else if a.toNat = 0x23 then s.txcrc
      else if a.toNat = 0x24 then s.statSent
      else if a.toNat = 0x25 then s.statRecv
      else if a.toNat = 0x26 then s.statColl
      else if a.toNat = 0x27 then s.statOvf
      else 0 := by
  have index : a.extractLsb' 0 4 = a.setWidth 4 := (BitVec.setWidth_eq_extractLsb' (by decide)).symm
  simp only [State.registerWord, bufByte, index, BitVec.lt_def, ← BitVec.toNat_inj]
  rfl

/-- Settles O16: a read answers the register word of its address. -/
theorem hostReadFollowsTheRegisterMap : Obligations.HostReadFollowsTheRegisterMap := by
  intro a s
  rw [decodeHost_rdWord, exec_decodeRead, registerWord_eq]
  rfl

/-! ## The length of a frame on the wire -/

/-- A byte takes one wire byte, a reserved one two (41_frame_codec.md R126). -/
theorem encodeByte_length (p : Params) (v : Byte) :
    (encodeByte p v).length = 1 + if isReserved p v then 1 else 0 := by
  unfold encodeByte
  split <;> rfl

/-- A stuffed list is longer by its reserved bytes. -/
theorem stuffed_length (p : Params) (l : List Byte) :
    (l.flatMap (encodeByte p)).length = l.length + (l.filter (isReserved p)).length := by
  induction l with
  | nil => rfl
  | cons v l ih =>
    rw [List.flatMap_cons, List.length_append, encodeByte_length, ih, List.filter_cons, List.length_cons]
    split
    · rw [List.length_cons]; omega
    · omega

/-- FRAME_SYNC, the 18 logical bytes, and one more for each reserved one (30_encoding.md R105). -/
theorem wireFrame_length (p : Params) (buf : Buf) (crc : Word) :
    (wireFrame p buf crc).length = 19 + ((logicalFrame buf crc).filter (isReserved p)).length := by
  rw [wireFrame, List.length_cons, stuffed_length, logicalFrame_length]
  omega

/-- Settles O36: at most all of the 18 logical bytes are reserved. -/
theorem wireFrameLength : Obligations.WireFrameLength := by
  intro p buf crc
  have reserved := List.length_filter_le (isReserved p) (logicalFrame buf crc)
  rw [logicalFrame_length] at reserved
  have total := wireFrame_length p buf crc
  exact ⟨total, by omega, by omega⟩

/-! ## Rows that run inside other rows -/

/-- The TXENC row of a logical byte is the one the byte decodes to (R104). -/
theorem encodeNext_eq_exec (v : Byte) (s : State) : encodeNext v s = exec (decodeTxEncWith s.params v) s := by
  unfold encodeNext decodeTxEncWith
  split
  · rfl
  · split <;> rfl

/-- The PID row of logical byte 0 is the one the byte decodes to (R100). -/
theorem firstByte_eq_exec (d : Byte) (s : State) : firstByte d s = exec (decodePid d) s := by
  unfold firstByte decodePid
  split
  · rfl
  split
  · rfl
  split <;> rfl

/-- The commands of a CTRL write data word put together from its fields (R94, R236). -/
theorem decodeCommands_ctrlWdata (rxie txie send msgDone txdoneClr : Bool) :
    decodeCommands (ctrlWdata rxie txie send msgDone txdoneClr) =
      (if txdoneClr then [.ctrlTxdoneClr] else []) ++
        ((if msgDone then [.ctrlMsgDone] else []) ++ (if send then [.ctrlSend] else [])) := by
  revert rxie txie send msgDone txdoneClr; decide

/-- A row that a bit selects, run after a result, is a command that runs if the bit is set. -/
theorem foldl_selected (bit : Bool) (i : Instr) (r : Result) :
    (if bit then [i] else []).foldl (fun r i => andThen r (exec i)) r = andThen r (runIf bit (exec i)) := by
  cases bit with
  | true => rfl
  | false => cases r <;> rfl

/-- Sequencing is associative. -/
theorem andThen_assoc (r : Result) (f g : State → Result) :
    andThen (andThen r f) g = andThen r fun s => andThen (f s) g := by
  cases r <;> rfl

/-- A CTRL write loads the enables, then runs the rows its data word decodes to, in their order (R236). -/
theorem exec_wrCtrl_eq_foldl (rxie txie send msgDone txdoneClr : Bool) (s : State) :
    exec (.wrCtrl rxie txie send msgDone txdoneClr) s =
      (decodeCommands (ctrlWdata rxie txie send msgDone txdoneClr)).foldl (fun r i => andThen r (exec i))
        (.next { s with hostRdata := 0, rxie := rxie, txie := txie }) := by
  rw [decodeCommands_ctrlWdata, List.foldl_append, List.foldl_append, foldl_selected, foldl_selected, foldl_selected,
    andThen_assoc]
  rfl

/-- Settles O6: the nested rows are the decoder's, each by its format. -/
theorem nestedRowsAreTheDecodedRows : Obligations.NestedRowsAreTheDecodedRows :=
  ⟨encodeNext_eq_exec, fun _ v lits => decodeTxEncWith_source lits v, firstByte_eq_exec, exec_wrCtrl_eq_foldl⟩

end Machine

end Sys2Proof
end

section
/-! PROOFS. The CRC (spec 41_frame_codec.md R120 to R125). One bit of the register is linear, and it loses nothing
because the polynomial has a constant term: from the first comes the closed form of R122, from the second that two
payloads which differ in one byte have different CRCs. -/

namespace Sys2Proof.Machine

/-! ## One bit of the register -/

/-- One bit of the reflected register is linear (R122). -/
theorem crcBitReflected_xor (poly x y : Word) :
    crcBitReflected poly (x ^^^ y) = crcBitReflected poly x ^^^ crcBitReflected poly y := by
  unfold crcBitReflected
  rw [BitVec.getLsbD_xor, BitVec.ushiftRight_xor_distrib]
  have cancel (a b r : Word) : (a ^^^ r) ^^^ (b ^^^ r) = a ^^^ b := by
    calc (a ^^^ r) ^^^ (b ^^^ r) = (a ^^^ b) ^^^ (r ^^^ r) := by ac_rfl
      _ = a ^^^ b := by rw [BitVec.xor_self, BitVec.xor_zero]
  cases x.getLsbD 0 <;> cases y.getLsbD 0
  · rfl
  · exact BitVec.xor_assoc ..
  · exact (by ac_rfl : x >>> 1 ^^^ y >>> 1 ^^^ poly.reverse = x >>> 1 ^^^ poly.reverse ^^^ y >>> 1)
  · exact (cancel ..).symm

/-- One bit of the reflected register loses nothing: the constant term of the polynomial stands in bit 15 of the result
exactly if it was shifted in. -/
theorem crcBitReflected_injective {poly : Word} (constantTerm : poly.getLsbD 0 = true) :
    Function.Injective (crcBitReflected poly) := by
  intro x y same
  have top : poly.reverse.getLsbD 15 = true := by rw [BitVec.getLsbD_reverse]; exact constantTerm
  have out_bit (c : Word) : (crcBitReflected poly c).getLsbD 15 = c.getLsbD 0 := by
    unfold crcBitReflected
    cases c.getLsbD 0
    · simp
    · rw [if_pos rfl, BitVec.getLsbD_xor, top]; simp
  have low : x.getLsbD 0 = y.getLsbD 0 := by rw [← out_bit, same, out_bit]
  have high : x >>> 1 = y >>> 1 := by
    unfold crcBitReflected at same
    rw [low] at same
    split at same
    · exact (BitVec.xor_left_inj _).mp same
    · exact same
  refine BitVec.eq_of_getLsbD_eq fun i _ => ?_
  cases i with
  | zero => exact low
  | succ i => simpa [Nat.add_comm] using congrArg (·.getLsbD i) high

/-- One bit of the MSB-first register loses nothing: the constant term of the polynomial stands in bit 0 of the result
exactly if it was shifted in. -/
theorem crcBitMsbFirst_injective {poly : Word} (constantTerm : poly.getLsbD 0 = true) :
    Function.Injective (crcBitMsbFirst poly) := by
  intro x y same
  have out_bit (c : Word) : (crcBitMsbFirst poly c).getLsbD 0 = c.getLsbD 15 := by
    unfold crcBitMsbFirst
    cases c.getLsbD 15
    · simp
    · rw [if_pos rfl, BitVec.getLsbD_xor, constantTerm]; simp
  have high : x.getLsbD 15 = y.getLsbD 15 := by rw [← out_bit, same, out_bit]
  have low : x <<< 1 = y <<< 1 := by
    unfold crcBitMsbFirst at same
    rw [high] at same
    split at same
    · exact (BitVec.xor_left_inj _).mp same
    · exact same
  refine BitVec.eq_of_getLsbD_eq fun i bound => ?_
  by_cases top : i = 15
  · rw [top, high]
  · have bit := congrArg (·.getLsbD (i + 1)) low
    simpa [bound, show i + 1 < 16 by omega] using bit

/-! ## One byte -/

/-- A linear step stays linear when it is repeated. -/
theorem repeatStep_xor {f : Word → Word} (linear : ∀ x y, f (x ^^^ y) = f x ^^^ f y) (n : Nat) (x y : Word) :
    repeatStep f n (x ^^^ y) = repeatStep f n x ^^^ repeatStep f n y := by
  induction n generalizing x y with
  | zero => rfl
  | succ n ih => rw [repeatStep, linear, ih]; rfl

/-- A step that loses nothing loses nothing when it is repeated. -/
theorem repeatStep_injective {f : Word → Word} (inj : Function.Injective f) (n : Nat) :
    Function.Injective (repeatStep f n) := by
  induction n with
  | zero => exact fun _ _ same => same
  | succ n ih => exact ih.comp inj

/-- Eight bits of the reflected register shift a high byte down and feed nothing back. -/
theorem repeatStep_highByte (h : Byte) :
    repeatStep (crcBitReflected 0x1021) 8 (h ++ 0#8) = h.setWidth 16 := by
  revert h; decide +kernel

/-- Eight bits of the reflected register on a low byte: what avr-libc writes in closed form (R122). -/
theorem repeatStep_lowByte (l : Byte) :
    repeatStep (crcBitReflected 0x1021) 8 (l.setWidth 16) =
      (((l ^^^ (l <<< 4)) ++ 0#8) ^^^ ((l ^^^ (l <<< 4)) >>> 4).setWidth 16) ^^^
        ((l ^^^ (l <<< 4)).setWidth 16 <<< 3) := by
  revert l; decide +kernel

/-- Two bytes side by side. -/
theorem append_eq_xor (h l : Byte) : (h ++ l : Word) = (h ++ 0#8) ^^^ l.setWidth 16 := by
  have wide : l.setWidth 16 = 0#8 ++ l := BitVec.setWidth_eq_append (by decide)
  rw [wide, BitVec.xor_append, BitVec.xor_zero, BitVec.zero_xor]

/-- A byte of the reflected register, by the bytes of the register and the byte added in (R122). -/
theorem repeatStep_reflected (x : Word) :
    repeatStep (crcBitReflected 0x1021) 8 x =
      (x.extractLsb' 8 8).setWidth 16 ^^^ repeatStep (crcBitReflected 0x1021) 8 ((x.setWidth 8).setWidth 16) := by
  have bytes : x = x.extractLsb' 8 8 ++ x.setWidth 8 := by
    rw [BitVec.setWidth_eq_extractLsb' (by decide), BitVec.extractLsb'_append_extractLsb'_eq_extractLsb' (by rfl)]
    simp
  conv_lhs => rw [bytes, append_eq_xor, repeatStep_xor (crcBitReflected_xor _), repeatStep_highByte]

/-- Settles O37: the register byte by byte, the low one by its closed form. -/
theorem reflectedCrcClosedForm : Obligations.ReflectedCrcClosedForm := by
  intro c d
  have high : (c ^^^ d.setWidth 16).extractLsb' 8 8 = c.extractLsb' 8 8 := by
    refine BitVec.eq_of_getLsbD_eq fun i bound => ?_
    simp [bound]
  have low : (c ^^^ d.setWidth 16).setWidth 8 = d ^^^ c.setWidth 8 := by
    refine BitVec.eq_of_getLsbD_eq fun i bound => ?_
    simp [bound, Bool.xor_comm]
  rw [crcUpdateReflected, repeatStep_reflected, high, low, repeatStep_lowByte]
  simp only [append_eq_xor _ (c.extractLsb' 8 8)]
  ac_rfl

/-! ## Payloads that differ -/

/-- The CRC step of a byte loses nothing of the register, in both variants (R120). -/
theorem crcUpdate_register_injective {p : Params} (constantTerm : p.crcPoly.getLsbD 0 = true) (d : Byte) :
    Function.Injective fun c => crcUpdate p c d := by
  intro x y same
  simp only [crcUpdate] at same
  split at same
  · exact (BitVec.xor_left_inj _).mp (repeatStep_injective (crcBitReflected_injective constantTerm) 8 same)
  · exact (BitVec.xor_left_inj _).mp (repeatStep_injective (crcBitMsbFirst_injective constantTerm) 8 same)

/-- The CRC step tells any two bytes apart, in both variants (R120). -/
theorem crcUpdate_byte_injective {p : Params} (constantTerm : p.crcPoly.getLsbD 0 = true) (c : Word) :
    Function.Injective (crcUpdate p c) := by
  intro x y same
  simp only [crcUpdate] at same
  split at same
  · have wide := (BitVec.xor_right_inj _).mp (repeatStep_injective (crcBitReflected_injective constantTerm) 8 same)
    simpa using congrArg (BitVec.setWidth 8) wide
  · have wide := (BitVec.xor_right_inj _).mp (repeatStep_injective (crcBitMsbFirst_injective constantTerm) 8 same)
    refine BitVec.eq_of_getLsbD_eq fun i bound => ?_
    simpa [show i + 8 < 16 by omega, bound] using congrArg (·.getLsbD (i + 8)) wide

/-- The register after a list of bytes loses nothing of its value before them (R121). -/
theorem crcFold_injective {p : Params} (constantTerm : p.crcPoly.getLsbD 0 = true) (ds : List Byte) :
    Function.Injective fun c => crcFold p c ds := by
  induction ds with
  | nil => exact fun _ _ same => same
  | cons d ds ih => exact ih.comp (crcUpdate_register_injective constantTerm d)

/-- A list of bytes with one byte replaced by another has another CRC. -/
theorem crcOf_set_ne {p : Params} (constantTerm : p.crcPoly.getLsbD 0 = true) {ds : List Byte} {k : Nat}
    (bound : k < ds.length) {d : Byte} (other : d ≠ ds[k]) : crcOf p (ds.set k d) ≠ crcOf p ds := by
  intro same
  have fold := (BitVec.xor_left_inj _).mp same
  have parts : ds = ds.take k ++ ds[k] :: ds.drop (k + 1) := by simp
  rw [List.set_eq_take_append_cons_drop, if_pos bound] at fold
  conv_rhs at fold => rw [parts]
  simp only [crcFold, List.foldl_append, List.foldl_cons] at fold
  exact other (crcUpdate_byte_injective constantTerm _ (crcFold_injective constantTerm _ fold))

/-- Settles O38: a flipped bit makes another byte. -/
theorem singleBitFlipsChangeTheCrc : Obligations.SingleBitFlipsChangeTheCrc := by
  intro c p k bit poly
  have flipped : p[k] ^^^ (1#8 <<< bit.val) ≠ p[k] := by
    intro same
    have one_bit : ∀ bit : Fin 8, 1#8 <<< bit.val ≠ 0#8 := by decide
    exact one_bit bit ((BitVec.xor_right_inj p[k]).mp (same.trans BitVec.xor_zero.symm))
  rw [computeCrc, computeCrc, Vector.toList_set]
  exact crcOf_set_ne (by rw [poly]; rfl) (by simp) (by simpa using flipped)

end Sys2Proof.Machine
end

section
/-! PROOFS. Byte stuffing (spec 41_frame_codec.md R126, R129) and its streaming form in TX_SEND (R127, R128;
43_arbiter_send.md R164): one run hands over one wire byte, and the runs from `tx_pos` = 0 hand over the wire frame. -/

namespace Sys2Proof.Machine

/-! ## Byte stuffing -/

/-- A byte is reserved exactly if it is one of the two framing symbols (30_encoding.md R102). -/
theorem isReserved_iff {p : Params} {v : Byte} : isReserved p v = true ↔ v = p.frameSync ∨ v = p.frameEsc := by
  simp [isReserved]

/-- The stuffed bytes with the source's literals (R126). -/
theorem encodeByte_source {p : Params} (lits : p.SourceLiterals) (v : Byte) :
    encodeByte p v = if v = 0x7E then [0x7D, 0x5E] else if v = 0x7D then [0x7D, 0x5D] else [v] := by
  simp only [encodeByte, isReserved_iff, lits.frameSync, lits.frameEsc, lits.escMask]
  by_cases sync : v = 0x7E#8
  · subst sync; rfl
  · by_cases esc : v = 0x7D#8
    · subst esc; rfl
    · simp [sync, esc]

/-- A stuffed byte holds no FRAME_SYNC (R126). -/
theorem frameSync_notMem_encodeByte {p : Params} (lits : p.SourceLiterals) (v : Byte) :
    p.frameSync ∉ encodeByte p v := by
  rw [encodeByte_source lits, lits.frameSync]
  split
  · decide
  · split
    · decide
    · simpa [eq_comm] using ‹v ≠ 0x7E›

/-- A stuffed byte is the byte itself, read as it is, or FRAME_ESC and the masked byte, read as escaped (R126,
R129). -/
theorem encodeByte_symbols {p : Params} (lits : p.SourceLiterals) (v : Byte) :
    (encodeByte p v = [v] ∧ decodeSymbol p v false = (.data v, false)) ∨
      ∃ w, encodeByte p v = [p.frameEsc, w] ∧ decodeSymbol p p.frameEsc false = (.none, true) ∧
        decodeSymbol p w true = (.data v, false) := by
  simp only [encodeByte_source lits, decodeSymbol, lits.frameSync, lits.frameEsc, lits.escMask]
  by_cases sync : v = 0x7E#8
  · subst sync; exact .inr ⟨0x5E, by decide⟩
  · by_cases esc : v = 0x7D#8
    · subst esc; exact .inr ⟨0x5D, by decide⟩
    · exact .inl (by simp [sync, esc])

/-- A stuffed byte destuffs to the byte (R129). -/
theorem destuff_encodeByte {p : Params} (lits : p.SourceLiterals) (v : Byte) (rest : List Byte) :
    destuff p (encodeByte p v ++ rest) false = v :: destuff p rest false := by
  rcases encodeByte_symbols lits v with ⟨stuffed, plain⟩ | ⟨w, stuffed, escape, masked⟩
  · simp [stuffed, destuff, plain]
  · simp [stuffed, destuff, escape, masked]

/-- A list of bytes, stuffed, destuffs to the list (R129). -/
theorem destuff_stuffed {p : Params} (lits : p.SourceLiterals) (l : List Byte) :
    destuff p (l.flatMap (encodeByte p)) false = l := by
  induction l with
  | nil => rfl
  | cons v l ih => rw [List.flatMap_cons, destuff_encodeByte lits, ih]

/-- Settles O35: the two reserved bytes are written out, every other byte stands for itself. -/
theorem stuffingIsReversible : Obligations.StuffingIsReversible := by
  intro p v lits
  refine ⟨?_, encodeByte_source lits v, destuff_encodeByte lits v⟩
  rw [← lits.frameSync]
  exact frameSync_notMem_encodeByte lits v

/-! ## One wire byte -/

/-- Settles O39: a TXENC row is one of the encoder's moves, by `tx_half`. -/
theorem encoderRows : Obligations.EncoderRows :=
  fun _ => ⟨rfl, rfl, fun _ => rfl⟩

/-- Without a collision and with a ready UART, TX_SEND is `next_wire` and the test for the last position (R164). -/
theorem execTxsTxSend_ready {s : State} (quiet : s.collision = false) (ready : s.inp.uartReady = true) :
    execTxsTxSend s =
      andThen (nextWire s) fun t =>
        .next { t with txState := if t.txPos = Config.txLastPos then .txDrain else t.txState } := by
  rw [execTxsTxSend, if_neg (by simp [quiet]), if_pos ready]
  congr 1
  funext t
  split <;> rfl

/-- `next_wire` inside the frame, by its three cases (R127). -/
theorem nextWire_of_frameByte {s : State} {v : Byte} (started : s.txPos ≠ 0)
    (logical : (logicalFrame s.txbuf s.txcrc)[s.txPos.toNat - 1]? = some v) :
    nextWire s =
      .next (if s.txHalf then s.sendMasked v else if isReserved s.params v then s.sendPrefix else s.sendPlain v) := by
  rw [nextWire, if_neg started, State.frameByte, logicalByte_eq, logical]
  exact encodeNext_eq v s

/-- The position after the one of the last logical byte is TX_LAST_POS (R128). -/
theorem succ_eq_txLastPos {pos : BitVec 5} : pos + 1 = Config.txLastPos ↔ pos = 18 := by
  revert pos; decide

section LogicalByte

/-! One run of TX_SEND on the logical byte `v`. -/

variable {s : State} {v : Byte} (quiet : s.collision = false) (ready : s.inp.uartReady = true) (started : s.txPos ≠ 0)
  (logical : (logicalFrame s.txbuf s.txcrc)[s.txPos.toNat - 1]? = some v)

include quiet ready started logical

/-- After FRAME_ESC the masked byte goes out (R127). -/
theorem exec_txsTxSend_masked (half : s.txHalf = true) :
    exec .txsTxSend s = .next { s.sendMasked v with txState := if s.txPos = 18 then .txDrain else s.txState } := by
  show execTxsTxSend s = _
  rw [execTxsTxSend_ready quiet ready, nextWire_of_frameByte started logical, if_pos half, andThen_next]
  simp only [State.sendMasked, State.strobe, succ_eq_txLastPos]

/-- A reserved byte sends FRAME_ESC first, and the position stays (R127). -/
theorem exec_txsTxSend_escape (whole : s.txHalf = false) (reserved : isReserved s.params v = true) :
    exec .txsTxSend s = .next s.sendPrefix := by
  have inside : s.sendPrefix.txPos ≠ Config.txLastPos := by
    intro last
    rw [show s.txPos = Config.txLastPos from last, List.getElem?_eq_none (by simp [Config.txLastPos])] at logical
    cases logical
  show execTxsTxSend s = _
  rw [execTxsTxSend_ready quiet ready, nextWire_of_frameByte started logical, if_neg (by simp [whole]), if_pos reserved,
    andThen_next, if_neg inside]

/-- Any other byte goes out as it is (R127). -/
theorem exec_txsTxSend_plain (whole : s.txHalf = false) (plain : isReserved s.params v = false) :
    exec .txsTxSend s = .next { s.sendPlain v with txState := if s.txPos = 18 then .txDrain else s.txState } := by
  show execTxsTxSend s = _
  rw [execTxsTxSend_ready quiet ready, nextWire_of_frameByte started logical, if_neg (by simp [whole]),
    if_neg (by simp [plain]), andThen_next]
  simp only [State.sendPlain, State.strobe, succ_eq_txLastPos]

end LogicalByte

/-- At position 0 FRAME_SYNC goes out (R127). -/
theorem exec_txsTxSend_sync {s : State} (quiet : s.collision = false) (ready : s.inp.uartReady = true)
    (start : s.txPos = 0) : exec .txsTxSend s = .next s.sendSync := by
  show execTxsTxSend s = _
  rw [execTxsTxSend_ready quiet ready, nextWire, if_pos start]
  rfl

/-- Settles O43: TX_SEND waits, or hands over FRAME_SYNC or the next wire byte of a logical byte. -/
theorem sendHandsOverOneByte : Obligations.SendHandsOverOneByte := by
  intro s quiet
  refine ⟨fun busy => ?_, exec_txsTxSend_sync quiet, fun v ready started logical => ?_⟩
  · show execTxsTxSend s = _
    rw [execTxsTxSend, if_neg (by simp [quiet]), if_neg (by simp [busy])]
  · cases half : s.txHalf with
    | true => exact exec_txsTxSend_masked quiet ready started logical half
    | false =>
      rw [if_neg Bool.false_ne_true]
      cases reserved : isReserved s.params v with
      | true =>
        rw [if_pos (isReserved_iff.mp reserved)]
        exact exec_txsTxSend_escape quiet ready started logical half reserved
      | false =>
        rw [if_neg (mt isReserved_iff.mpr (by simp [reserved])), ← half]
        exact exec_txsTxSend_plain quiet ready started logical half reserved

/-- Settles O44: there is no logical byte past the frame, and in TX_SEND the invariant bounds `tx_pos` by the last
one's. -/
theorem byteBeyondTheFrameIsStuck : Obligations.ByteBeyondTheFrameIsStuck := by
  intro s sending quiet ready past
  have started : s.txPos ≠ 0 := by intro start; simp [start] at past
  have noByte : s.frameByte (s.txPos.toNat - 1) = none := by
    rw [State.frameByte, logicalByte_eq, List.getElem?_eq_none (by rw [logicalFrame_length]; omega)]
  constructor
  · show execTxsTxSend s = _
    rw [execTxsTxSend_ready quiet ready, nextWire, if_neg started, noByte]
    rfl
  · intro inv
    have bound : s.txPos.toNat ≤ 18 := inv.sendUnfinished sending
    omega

/-! ## The wire frame -/

/-- One more run of TX_SEND that answers a next state. -/
theorem sendRun_succ {n : Nat} {s t : State} (run : exec .txsTxSend s = .next t) :
    sendRun (n + 1) s = (sendRun n t).map fun r => (t.txByte :: r.1, r.2) := by
  rw [sendRun, run]

/-- Runs one after the other hand over their wire bytes one after the other. -/
theorem sendRun_append {n m : Nat} {s t u : State} {ws vs : List Byte} (first : sendRun n s = some (ws, t))
    (second : sendRun m t = some (vs, u)) : sendRun (n + m) s = some (ws ++ vs, u) := by
  induction n generalizing s ws with
  | zero =>
    obtain ⟨rfl, rfl⟩ : [] = ws ∧ s = t := by simpa [sendRun] using first
    simpa using second
  | succ n ih =>
    rw [Nat.add_right_comm]
    cases run : exec .txsTxSend s with
    | next a =>
      rw [sendRun_succ run, Option.map_eq_some_iff] at first
      obtain ⟨⟨ws', t'⟩, rest, same⟩ := first
      obtain ⟨rfl, rfl⟩ : a.txByte :: ws' = ws ∧ t' = t := by simpa using same
      rw [sendRun_succ run, ih rest]
      rfl
    | fault e => rw [sendRun, run] at first; cases first
    | refused e => rw [sendRun, run] at first; cases first

/-- A send that has come to position `pos` and state `x` between two logical bytes, `w` being the wire byte just
strobed. -/
def State.sentUpTo (s : State) (pos : BitVec 5) (x : TxState) (w : Byte) : State :=
  { s with txPos := pos, txHalf := false, txStrobe := true, txByte := w, txState := x }

/-- FRAME_SYNC takes one run (R127). -/
theorem sendRun_sync {s : State} (quiet : s.collision = false) (ready : s.inp.uartReady = true) (start : s.txPos = 0)
    (whole : s.txHalf = false) :
    sendRun 1 s = some ([s.params.frameSync], s.sentUpTo 1 s.txState s.params.frameSync) := by
  rw [sendRun_succ (exec_txsTxSend_sync quiet ready start), State.sentUpTo, ← whole]
  rfl

/-- A logical byte takes one run for each of its stuffed bytes, and the last one ends TX_SEND (R127, R128). -/
theorem sendRun_encodeByte {s : State} {pos : BitVec 5} {x : TxState} {w v : Byte} (quiet : s.collision = false)
    (ready : s.inp.uartReady = true) (started : pos ≠ 0)
    (logical : (logicalFrame s.txbuf s.txcrc)[pos.toNat - 1]? = some v) :
    ∃ w', sendRun (encodeByte s.params v).length (s.sentUpTo pos x w) =
      some (encodeByte s.params v, s.sentUpTo (pos + 1) (if pos = 18 then .txDrain else x) w') := by
  cases reserved : isReserved s.params v with
  | true =>
    have stuffed : encodeByte s.params v = [s.params.frameEsc, v ^^^ s.params.escMask] := if_pos reserved
    have first := exec_txsTxSend_escape (s := s.sentUpTo pos x w) quiet ready started logical rfl reserved
    have second := exec_txsTxSend_masked (s := (s.sentUpTo pos x w).sendPrefix) quiet ready started logical rfl
    refine ⟨v ^^^ s.params.escMask, ?_⟩
    rw [stuffed, List.length_cons, sendRun_succ first, List.length_singleton, sendRun_succ second]
    rfl
  | false =>
    have stuffed : encodeByte s.params v = [v] := if_neg (by simp [reserved])
    have only := exec_txsTxSend_plain (s := s.sentUpTo pos x w) quiet ready started logical rfl reserved
    refine ⟨v, ?_⟩
    rw [stuffed, List.length_singleton, sendRun_succ only]
    rfl

/-- FRAME_SYNC and the first `k` logical bytes, stuffed, take one run for each wire byte (R127, R128). -/
theorem sendRun_take {s : State} (quiet : s.collision = false) (ready : s.inp.uartReady = true) (start : s.txPos = 0)
    (whole : s.txHalf = false) {k : Nat} (bound : k ≤ 18) :
    ∃ w, sendRun (1 + (((logicalFrame s.txbuf s.txcrc).take k).flatMap (encodeByte s.params)).length) s =
      some (s.params.frameSync :: ((logicalFrame s.txbuf s.txcrc).take k).flatMap (encodeByte s.params),
        s.sentUpTo (BitVec.ofNat 5 (k + 1)) (if k = 18 then .txDrain else s.txState) w) := by
  induction k with
  | zero => exact ⟨_, sendRun_sync quiet ready start whole⟩
  | succ k ih =>
    obtain ⟨w, sent⟩ := ih (by omega)
    have next_position : BitVec.ofNat 5 (k + 1 + 1) = BitVec.ofNat 5 (k + 1) + 1 := BitVec.ofNat_add (k + 1) 1
    have position : (BitVec.ofNat 5 (k + 1)).toNat = k + 1 := by rw [BitVec.toNat_ofNat]; omega
    have started : BitVec.ofNat 5 (k + 1) ≠ 0 := fun h => by simp [h] at position
    have last : BitVec.ofNat 5 (k + 1) = 18 ↔ k + 1 = 18 := by rw [← BitVec.toNat_inj, position]; rfl
    have inside : k < (logicalFrame s.txbuf s.txcrc).length := by rw [logicalFrame_length]; omega
    obtain ⟨w', next⟩ :=
      sendRun_encodeByte (x := s.txState) (w := w) quiet ready started
        (by rw [position]; exact List.getElem?_eq_getElem inside)
    rw [if_neg (by omega)] at sent
    refine ⟨w', ?_⟩
    rw [List.take_succ_eq_append_getElem inside, List.flatMap_append, List.flatMap_singleton, List.length_append,
      ← Nat.add_assoc, sendRun_append sent next, next_position]
    simp only [last, List.cons_append]

/-- Settles O45: all 18 logical bytes after FRAME_SYNC. -/
theorem sendHandsOverTheWireFrame : Obligations.SendHandsOverTheWireFrame := by
  intro s _ start whole quiet ready
  obtain ⟨w, sent⟩ := sendRun_take quiet ready start whole (Nat.le_refl 18)
  rw [List.take_of_length_le (by simp), Nat.add_comm] at sent
  exact ⟨_, sent, rfl, rfl, rfl, rfl, rfl⟩

end Sys2Proof.Machine
end

section
/-! PROOFS. Received wire bytes one after the other (spec 41_frame_codec.md R129, R130): what a data byte does in each
mode and at each index of a frame, a stuffed byte is received as the byte, and so a whole wire frame is received as its
payload. -/

namespace Sys2Proof.Machine

/-! ## One wire byte -/

/-- What the receive path does with a symbol (44_arbiter_receive.md R201 to R204). -/
def receiveSymbol (y : Symbol) (s : State) : Result :=
  match y with
  | .sync => .next s.syncFrame
  | .none => .next (if s.rxMode = .listen then s else { s with rxEsc := true })
  | .data d => receiveData d s

/-- FRAME_SYNC is a SYNC whatever the escape flag is (R129). -/
theorem decodeSymbol_sync (p : Params) (esc : Bool) : decodeSymbol p p.frameSync esc = (.sync, false) := if_pos rfl

/-- A received byte is what `decode_symbol` makes of it (R129). -/
theorem receiveByte_eq (b : Byte) (s : State) :
    receiveByte b s = receiveSymbol (decodeSymbol s.params b s.rxEsc).1 s := by
  rcases receiveByte_cases b s with ⟨rfl, run⟩ | ⟨symbol, run⟩ | ⟨d, symbol, run⟩
  · rw [run, decodeSymbol_sync]; rfl
  · rw [run, symbol]; rfl
  · rw [run, symbol]; rfl

/-- A FRAME_SYNC starts a fresh frame (44_arbiter_receive.md R201). -/
theorem receiveByte_sync (s : State) : receiveByte s.params.frameSync s = .next s.syncFrame := by
  rw [receiveByte_eq, decodeSymbol_sync]; rfl

/-- The first of several received bytes. -/
theorem receiveAll_cons (b : Byte) (bs : List Byte) (s : State) :
    receiveAll (b :: bs) s = andThen (receiveByte b s) (receiveAll bs) := rfl

/-- Received bytes in two parts. -/
theorem receiveAll_append (bs cs : List Byte) (s : State) :
    receiveAll (bs ++ cs) s = andThen (receiveAll bs s) (receiveAll cs) := by
  induction bs generalizing s with
  | nil => rfl
  | cons b bs ih =>
    rw [List.cons_append, receiveAll_cons, receiveAll_cons, andThen_assoc]
    exact congrArg _ (funext ih)

/-! ## A data byte, by the mode -/

/-- A mode mid-frame is SELF, or one of the two of a mailbox frame. -/
theorem RxMode.of_ne_listen {m : RxMode} (mid : m ≠ .listen) : m = .self ∨ m = .store ∨ m = .drop := by
  cases m <;> simp at mid ⊢

section DataByte

variable {s : State} (d : Byte)

/-- In LISTEN it is ignored (44_arbiter_receive.md R202). -/
theorem receiveData_listen (mode : s.rxMode = .listen) : receiveData d s = .next s := by
  unfold receiveData; split <;> simp_all

/-- In SELF it is compared (44_arbiter_receive.md R205). -/
theorem receiveData_self (mode : s.rxMode = .self) : receiveData d s = selfData d { s with rxEsc := false } := by
  unfold receiveData; split <;> simp_all

/-- In STORE and DROP it belongs to the mailbox frame (44_arbiter_receive.md R204). -/
theorem receiveData_mailbox (mailbox : s.rxMode = .store ∨ s.rxMode = .drop) :
    receiveData d s = mailboxData d { s with rxEsc := false } := by
  unfold receiveData; split <;> simp_all

/-- Mid-frame it clears the escape flag, whatever that was (44_arbiter_receive.md R204). -/
theorem receiveData_withEsc (mid : s.rxMode ≠ .listen) (esc : Bool) :
    receiveData d { s with rxEsc := esc } = receiveData d s := by
  rcases RxMode.of_ne_listen mid with mode | mailbox
  · exact (receiveData_self d (s := { s with rxEsc := esc }) mode).trans (receiveData_self d mode).symm
  · exact (receiveData_mailbox d (s := { s with rxEsc := esc }) mailbox).trans (receiveData_mailbox d mailbox).symm

end DataByte

/-! ## A data byte of a SELF frame -/

section SelfFrame

variable {s : State} {e d : Byte}

/-- It is compared with the byte sent at its index (44_arbiter_receive.md R205). -/
theorem selfData_of_frameByte (sent : s.frameByte s.rxIdx.toNat = some e) :
    selfData d s = .next (s.selfCompare e d) := by
  rw [selfData, sent]

/-- Past the frame there is no rule (44_arbiter_receive.md R204; log 7). -/
theorem selfData_pastFrame (past : s.frameByte s.rxIdx.toNat = none) : selfData d s = .fault .receiverPastFrame := by
  rw [selfData, past]

/-- Another byte than the one sent ends the frame (44_arbiter_receive.md R205). -/
theorem selfCompare_mismatch (mismatch : d ≠ e) : s.selfCompare e d = { s.flagCollision with rxMode := .listen } :=
  if_pos mismatch

/-- The last byte confirms the echo (44_arbiter_receive.md R206). -/
theorem selfCompare_last (same : d = e) (last : s.rxIdx.toNat = 17) :
    s.selfCompare e d = { s with echoOk := true, rxMode := .listen } := by
  rw [State.selfCompare, if_neg (not_not.mpr same), if_pos last]

/-- Any other byte goes on (44_arbiter_receive.md R205). -/
theorem selfCompare_notLast (same : d = e) (notLast : s.rxIdx.toNat ≠ 17) :
    s.selfCompare e d = { s with rxIdx := s.rxIdx + 1 } := by
  rw [State.selfCompare, if_neg (not_not.mpr same), if_neg notLast]

end SelfFrame

/-! ## A data byte of a mailbox frame, by its index -/

/-- Logical byte 0 (44_arbiter_receive.md R207). -/
theorem mailboxData_first {s : State} (idx : s.rxIdx.toNat = 0) (d : Byte) : mailboxData d s = firstByte d s :=
  if_pos idx

/-- A payload byte, byte 0 being of the expected length class (44_arbiter_receive.md R207, R208). -/
theorem mailboxData_payload {s : State} {d : Byte} (bound : s.rxIdx.toNat < 16)
    (expected : s.rxIdx.toNat = 0 → lenClass d = s.params.lenClassExpected) :
    mailboxData d s = .next (s.payloadByte (s.rxIdx.setWidth 4) d) := by
  by_cases first : s.rxIdx.toNat = 0
  · have zero : s.rxIdx = 0#5 := BitVec.eq_of_toNat_eq first
    rw [mailboxData, if_pos first, firstByte_expected (expected first), zero]
    rfl
  · rw [mailboxData, if_neg first, if_pos bound]

/-- The CRC high byte (44_arbiter_receive.md R209). -/
theorem mailboxData_crcHigh {s : State} (idx : s.rxIdx.toNat = 16) (d : Byte) :
    mailboxData d s = .next (s.crcHighByte d) := by
  simp [mailboxData, idx]

/-- The CRC low byte (44_arbiter_receive.md R210). -/
theorem mailboxData_crcLow {s : State} (idx : s.rxIdx.toNat = 17) (d : Byte) :
    mailboxData d s = .next (s.completeFrame d) := by
  simp [mailboxData, idx, Config.payloadSize]

/-- Past the frame there is no rule (44_arbiter_receive.md R204; log 7). -/
theorem mailboxData_pastFrame {s : State} (idx : 17 < s.rxIdx.toNat) (d : Byte) :
    mailboxData d s = .fault .receiverPastFrame := by
  unfold mailboxData Config.payloadSize
  rw [if_neg (by omega), if_neg (by omega), if_neg (by omega), if_neg (by omega)]

/-- A frame whose CRC is wrong counts as corruption (44_arbiter_receive.md R210). -/
theorem completeFrame_corrupt {s : State} {d : Byte} (corrupt : s.rxCrchi ++ d ≠ s.rxCrc ^^^ s.params.crcXorOut) :
    s.completeFrame d = { s with statColl := incStat s.params s.statColl, rxMode := .listen } := if_pos corrupt

/-- A valid frame that is being dropped counts as an overflow (44_arbiter_receive.md R210). -/
theorem completeFrame_overflow {s : State} {d : Byte} (valid : s.rxCrchi ++ d = s.rxCrc ^^^ s.params.crcXorOut)
    (dropped : s.rxMode = .drop) :
    s.completeFrame d = { s with statOvf := incStat s.params s.statOvf, rxMode := .listen } := by
  rw [State.completeFrame, if_neg (not_not.mpr valid), if_pos dropped]

/-- A valid frame is delivered unless it is being dropped (44_arbiter_receive.md R210). -/
theorem completeFrame_delivered {s : State} {d : Byte} (valid : s.rxCrchi ++ d = s.rxCrc ^^^ s.params.crcXorOut)
    (stored : s.rxMode ≠ .drop) :
    s.completeFrame d =
      { s with frameReady := true, statRecv := incStat s.params s.statRecv, rxMode := .listen } := by
  rw [State.completeFrame, if_neg (not_not.mpr valid), if_neg stored]

/-! ## A stuffed byte mid-frame -/

/-- A stuffed byte is received as the byte (R126, R129). -/
theorem receiveAll_encodeByte {s : State} (lits : s.params.SourceLiterals) (mid : s.rxMode ≠ .listen)
    (unescaped : s.rxEsc = false) (v : Byte) : receiveAll (encodeByte s.params v) s = receiveData v s := by
  have last (b : Byte) (t : State) : receiveAll [b] t = receiveByte b t := by
    rw [receiveAll_cons]; cases receiveByte b t <;> rfl
  rcases encodeByte_symbols lits v with ⟨stuffed, plain⟩ | ⟨w, stuffed, escape, masked⟩
  · rw [stuffed, last, receiveByte_eq, unescaped, plain]
    rfl
  · have prefixed : receiveByte s.params.frameEsc s = .next { s with rxEsc := true } := by
      rw [receiveByte_eq, unescaped, escape]
      exact congrArg _ (if_neg mid)
    rw [stuffed, receiveAll_cons, prefixed, andThen_next, last, receiveByte_eq, masked]
    exact receiveData_withEsc v mid true

/-- A stuffed byte of a mailbox frame. -/
theorem receiveAll_encodeByte_mailbox {s : State} (lits : s.params.SourceLiterals)
    (mailbox : s.rxMode = .store ∨ s.rxMode = .drop) (unescaped : s.rxEsc = false) (v : Byte) :
    receiveAll (encodeByte s.params v) s = mailboxData v s := by
  have mid : s.rxMode ≠ .listen := by rcases mailbox with mode | mode <;> simp [mode]
  rw [receiveAll_encodeByte lits mid unescaped, receiveData_mailbox v mailbox, ← unescaped]

/-! ## A whole frame -/

/-- A buffer whose first `k` bytes are those of `p`. -/
def filledTo (p old : Buf) (k : Nat) : Buf := Vector.ofFn fun i => if i.val < k then p[i] else old[i]

/-- One more byte filled in. -/
theorem bufSet_filledTo (p old : Buf) {k : Nat} (bound : k < 16) {idx : BitVec 4} (at_k : idx.toNat = k) :
    bufSet (filledTo p old k) idx p[k] = filledTo p old (k + 1) := by
  subst at_k
  refine Vector.ext fun i hi => ?_
  by_cases here : idx.toNat = i
  · simp [bufSet, filledTo, here]
  · have before : i < idx.toNat + 1 ↔ i < idx.toNat := by omega
    simp only [bufSet, filledTo, Vector.getElem_ofFn, before]
    exact (Vector.getElem_set_ne _ _ here).trans (Vector.getElem_ofFn _)

/-- All bytes filled in. -/
theorem filledTo_all (p old : Buf) : filledTo p old 16 = p :=
  Vector.ext fun i hi => by simp [filledTo]

/-- The first `k + 1` bytes of a payload. -/
theorem toList_take_succ (p : Buf) {k : Nat} (bound : k < 16) : p.toList.take (k + 1) = p.toList.take k ++ [p[k]] := by
  rw [List.take_succ_eq_append_getElem (by simpa using bound), Vector.getElem_toList]

/-- All bytes of a payload. -/
theorem toList_take_all (p : Buf) : p.toList.take 16 = p.toList := List.take_of_length_le (by simp)

/-- A mailbox frame that has just started in `s`, after the first `k` bytes of the payload `p` (44_arbiter_receive.md
R208). -/
def State.receivedTo (s : State) (p : Buf) (k : Nat) : State :=
  { s with
    rxbuf := if s.rxMode = .store then filledTo p s.rxbuf k else s.rxbuf
    rxCrc := crcFold s.params s.rxCrc (p.toList.take k)
    rxIdx := BitVec.ofNat 5 k }

/-- A frame that has just started. -/
theorem receivedTo_zero {s : State} (p : Buf) (start : s.rxIdx = 0) : s.receivedTo p 0 = s := by
  have none (old : Buf) : filledTo p old 0 = old := Vector.ext fun i hi => by simp [filledTo]
  simp only [State.receivedTo, none, ite_self]
  rw [show BitVec.ofNat 5 0 = s.rxIdx from start.symm]
  rfl

/-- One more payload byte. -/
theorem payloadByte_receivedTo (s : State) (p : Buf) {k : Nat} (bound : k < 16) :
    (s.receivedTo p k).payloadByte ((BitVec.ofNat 5 k).setWidth 4) p[k] = s.receivedTo p (k + 1) := by
  have index : ((BitVec.ofNat 5 k).setWidth 4).toNat = k := by simp; omega
  have next : ((BitVec.ofNat 5 k).setWidth 4).setWidth 5 + 1 = BitVec.ofNat 5 (k + 1) := by
    apply BitVec.eq_of_toNat_eq; simp; omega
  have crc : crcUpdate s.params (s.receivedTo p k).rxCrc p[k] = crcFold s.params s.rxCrc (p.toList.take (k + 1)) := by
    rw [toList_take_succ p bound, crcFold, List.foldl_append]; rfl
  have buf := bufSet_filledTo p s.rxbuf bound index
  by_cases store : s.rxMode = .store
  · simp only [State.payloadByte, State.receivedTo, store, if_true, buf, next, ← crc]
  · simp only [State.payloadByte, State.receivedTo, store, if_false, next, ← crc]

/-- The first `k` payload bytes of a frame that has just started, byte 0 being of the expected length class (R130). -/
theorem receiveAll_payload {s : State} {p : Buf} (lits : s.params.SourceLiterals)
    (mailbox : s.rxMode = .store ∨ s.rxMode = .drop) (unescaped : s.rxEsc = false) (start : s.rxIdx = 0)
    (expected : lenClass p[0] = s.params.lenClassExpected) {k : Nat} (bound : k ≤ 16) :
    receiveAll ((p.toList.take k).flatMap (encodeByte s.params)) s = .next (s.receivedTo p k) := by
  induction k with
  | zero => rw [receivedTo_zero p start]; rfl
  | succ k ih =>
    have index : (s.receivedTo p k).rxIdx.toNat = k := by simp [State.receivedTo]; omega
    have byte : receiveAll (encodeByte s.params p[k]) (s.receivedTo p k) = mailboxData p[k] (s.receivedTo p k) :=
      receiveAll_encodeByte_mailbox (s := s.receivedTo p k) lits mailbox unescaped p[k]
    rw [toList_take_succ p bound, List.flatMap_append, List.flatMap_singleton, receiveAll_append, ih (by omega),
      andThen_next, byte,
      mailboxData_payload (by rw [index]; exact bound) (by rw [index]; rintro rfl; exact expected)]
    exact congrArg _ (payloadByte_receivedTo s p bound)

/-- The bytes of a CRC make up the CRC (20_memory.md R78). -/
theorem crcHi_append_crcLo (c : Word) : crcHi c ++ crcLo c = c := by
  rw [crcHi, crcLo, BitVec.extractLsb'_append_extractLsb'_eq_extractLsb' (by rfl)]
  exact BitVec.extractLsb'_eq_self

/-- A wire frame, from LISTEN with no send: the payload, the CRC high byte, and the end of the frame (R130). -/
theorem receiveAll_wireFrame {s : State} {p : Buf} (lits : s.params.SourceLiterals) (noSend : s.checkSending = false)
    (expected : lenClass p[0] = s.params.lenClassExpected) (crc : Word) :
    receiveAll (wireFrame s.params p crc) s =
      .next (((s.syncFrame.receivedTo p 16).crcHighByte (crcHi crc)).completeFrame (crcLo crc)) := by
  have mailbox : s.syncFrame.rxMode = .store ∨ s.syncFrame.rxMode = .drop := by
    show s.modeAtSync = .store ∨ s.modeAtSync = .drop
    rw [State.modeAtSync, noSend]
    cases s.frameReady <;> simp
  have payload :
      receiveAll (p.toList.flatMap (encodeByte s.params)) s.syncFrame = .next (s.syncFrame.receivedTo p 16) := by
    have all := receiveAll_payload (s := s.syncFrame) lits mailbox rfl rfl expected (Nat.le_refl 16)
    rwa [toList_take_all] at all
  have stuffed (t : State) (params : t.params = s.params) (mode : t.rxMode = s.syncFrame.rxMode)
      (unescaped : t.rxEsc = false) (v : Byte) : receiveAll (encodeByte s.params v) t = mailboxData v t := by
    rw [← params]
    exact receiveAll_encodeByte_mailbox (by rw [params]; exact lits) (by rw [mode]; exact mailbox) unescaped v
  rw [wireFrame, receiveAll_cons, receiveByte_sync, andThen_next, logicalFrame, List.flatMap_append, receiveAll_append,
    payload, andThen_next, List.flatMap_cons, receiveAll_append, stuffed (s.syncFrame.receivedTo p 16) rfl rfl rfl,
    mailboxData_crcHigh rfl, andThen_next, List.flatMap_singleton,
    stuffed ((s.syncFrame.receivedTo p 16).crcHighByte (crcHi crc)) rfl rfl rfl, mailboxData_crcLow rfl]

/-- A mailbox frame that carries the CRC of its payload is not corrupt (44_arbiter_receive.md R210). -/
theorem crc_of_received (s : State) (p : Buf) :
    crcHi (computeCrc s.params p) ++ crcLo (computeCrc s.params p) =
      (s.syncFrame.receivedTo p 16).rxCrc ^^^ s.params.crcXorOut := by
  rw [crcHi_append_crcLo, State.receivedTo, toList_take_all]
  rfl

/-- Settles O32: FRAME_SYNC leaves no escape pending, so the frame destuffs byte by byte; and a mailbox frame that
carries the CRC of its payload is delivered. -/
theorem frameRoundTrip : Obligations.FrameRoundTrip := by
  refine ⟨fun c p esc lits => ?_, fun p s lits listen noSend empty expected => ?_⟩
  · rw [encodeFrame, wireFrame, destuff, decodeSymbol_sync]
    exact destuff_stuffed lits _
  · have store : s.modeAtSync = .store := by rw [State.modeAtSync, noSend, empty]; rfl
    have delivered := completeFrame_delivered
      (s := (s.syncFrame.receivedTo p 16).crcHighByte (crcHi (computeCrc s.params p))) (crc_of_received s p)
      (show s.modeAtSync ≠ .drop by simp [store])
    rw [encodeFrame, receiveAll_wireFrame lits noSend (expected.trans lits.lenClassExpected.symm), delivered]
    simp only [State.crcHighByte, State.receivedTo, State.syncFrame, store, listen, if_true, filledTo_all,
      toList_take_all, lits.crcInit, incStat_source lits]

end Sys2Proof.Machine
end

section
/-! PROOFS. A SYNC forgets the partial frame (spec 41_frame_codec.md R131). Two receive paths that differ only in what
an earlier partial frame left behind, its collision and its held CRC high byte, stay apart by just that: the held byte
is read only at the CRC low byte, and a frame has its own by then. -/

namespace Sys2Proof.Machine

/-! ## What a partial frame leaves behind -/

/-- The state `t` as it would be had a partial frame in mode `m` gone before (in LISTEN there was none): the collision
is flagged and counted, and the held byte `hi` stands in `rx_crchi` unless a later frame has put its own there. -/
def State.afterPartial (t : State) (m : RxMode) (hi : Byte) (own : Bool) : State :=
  { t with
    collision := if m = .listen then t.collision else true
    statColl := if m = .listen then t.statColl else incStat t.params t.statColl
    rxCrchi := if own then t.rxCrchi else hi }

/-- A mailbox frame whose CRC low byte is next has put its own CRC high byte into `rx_crchi`. -/
def HoldsOwnByte (own : Bool) (t : State) : Prop :=
  t.rxMode = .store ∨ t.rxMode = .drop → t.rxIdx.toNat = 17 → own = true

/-- `run` does the same from `t` whatever partial frame went before, and `own'` says whether a frame has put its own
CRC high byte into `rx_crchi` by its end. -/
def Forgets (run : State → Result) (own : Bool) (t : State) (own' : Bool) : Prop :=
  (∀ m hi, run (t.afterPartial m hi own) = andThen (run t) fun u => .next (u.afterPartial m hi own')) ∧
    ∀ u, run t = .next u → HoldsOwnByte own' u

/-- A run that answers a next state. -/
theorem Forgets.of_next {run : State → Result} {own own' : Bool} {t u : State} (next : run t = .next u)
    (same : ∀ m hi, run (t.afterPartial m hi own) = .next (u.afterPartial m hi own')) (held : HoldsOwnByte own' u) :
    Forgets run own t own' := by
  refine ⟨fun m hi => by rw [same, next]; rfl, fun u' next' => ?_⟩
  rw [← next_inj.mp (next.symm.trans next')]
  exact held

/-- A run that stops. -/
theorem Forgets.of_stop {run : State → Result} {own : Bool} {t : State} (stops : ∀ u, run t ≠ .next u)
    (same : ∀ m hi, run (t.afterPartial m hi own) = run t) : Forgets run own t own := by
  refine ⟨fun m hi => ?_, fun u next => absurd next (stops u)⟩
  rw [same]
  cases stop : run t with
  | next u => exact absurd stop (stops u)
  | fault e => rfl
  | refused e => rfl

/-- A run that does what another one does. -/
theorem Forgets.congr {run run' : State → Result} {own own' : Bool} {t t' : State} (h : Forgets run' own t' own')
    (plain : run t = run' t')
    (afterPartial : ∀ m hi, run (t.afterPartial m hi own) = run' (t'.afterPartial m hi own)) :
    Forgets run own t own' := by
  obtain ⟨same, held⟩ := h
  exact ⟨fun m hi => by rw [afterPartial, same, plain], fun u next => held u (plain.symm.trans next)⟩

/-- A state in LISTEN or SELF waits for no CRC low byte of a mailbox frame. -/
theorem HoldsOwnByte.of_noMailbox {own : Bool} {t : State} (mode : t.rxMode = .listen ∨ t.rxMode = .self) :
    HoldsOwnByte own t := by
  intro mailbox
  rcases mode with h | h <;> simp [h] at mailbox

/-- A state at another index does not either. -/
theorem HoldsOwnByte.of_idx {own : Bool} {t : State} (idx : t.rxIdx.toNat ≠ 17) : HoldsOwnByte own t :=
  fun _ last => absurd last idx

/-! ## The frame assembler -/

section Assembler

variable (t : State) (m : RxMode) (hi : Byte) (own : Bool)

/-- A SYNC (44_arbiter_receive.md R201). -/
theorem syncFrame_afterPartial : (t.afterPartial m hi own).syncFrame = t.syncFrame.afterPartial m hi own := by
  by_cases before : m = .listen <;> by_cases now : t.rxMode = .listen <;>
    simp [State.syncFrame, State.afterPartial, State.modeAtSync, before, now]

/-- A SELF compare (44_arbiter_receive.md R205, R206). -/
theorem selfCompare_afterPartial (e d : Byte) :
    (t.afterPartial m hi own).selfCompare e d = (t.selfCompare e d).afterPartial m hi own := by
  by_cases mismatch : d ≠ e
  · rw [selfCompare_mismatch mismatch, selfCompare_mismatch mismatch]
    by_cases before : m = .listen <;> simp [State.flagCollision, State.afterPartial, before]
  · have same : d = e := not_not.mp mismatch
    by_cases last : t.rxIdx.toNat = 17
    · rw [selfCompare_last same last, selfCompare_last (s := t.afterPartial m hi own) same last]; rfl
    · rw [selfCompare_notLast same last, selfCompare_notLast (s := t.afterPartial m hi own) same last]; rfl

/-- A payload byte (44_arbiter_receive.md R208). -/
theorem payloadByte_afterPartial (i : BitVec 4) (d : Byte) :
    (t.afterPartial m hi own).payloadByte i d = (t.payloadByte i d).afterPartial m hi own := rfl

/-- The CRC high byte is the frame's own from here on (44_arbiter_receive.md R209). -/
theorem crcHighByte_afterPartial (d : Byte) :
    (t.afterPartial m hi own).crcHighByte d = (t.crcHighByte d).afterPartial m hi true := rfl

/-- The end of a frame reads the held byte, which is the frame's own (44_arbiter_receive.md R210). -/
theorem completeFrame_afterPartial (d : Byte) :
    (t.afterPartial m hi true).completeFrame d = (t.completeFrame d).afterPartial m hi true := by
  by_cases valid : t.rxCrchi ++ d = t.rxCrc ^^^ t.params.crcXorOut
  · by_cases drop : t.rxMode = .drop
    · rw [completeFrame_overflow valid drop, completeFrame_overflow (s := t.afterPartial m hi true) valid drop]; rfl
    · rw [completeFrame_delivered valid drop, completeFrame_delivered (s := t.afterPartial m hi true) valid drop]; rfl
  · rw [completeFrame_corrupt valid, completeFrame_corrupt (s := t.afterPartial m hi true) valid]
    by_cases before : m = .listen <;> simp [State.afterPartial, before]

end Assembler

section DataByte

variable {t : State} {own : Bool} (d : Byte)

/-- A data byte of a SELF frame. -/
theorem selfData_forgets (self : t.rxMode = .self) : Forgets (selfData d) own t own := by
  cases sent : t.frameByte t.rxIdx.toNat with
  | none =>
    have stops := selfData_pastFrame (d := d) sent
    refine .of_stop (fun u next => by simp [stops] at next) fun m hi => ?_
    exact (selfData_pastFrame (s := t.afterPartial m hi own) sent).trans stops.symm
  | some e =>
    refine .of_next (selfData_of_frameByte sent) (fun m hi => ?_) (.of_noMailbox ?_)
    · rw [selfData_of_frameByte (s := t.afterPartial m hi own) sent, selfCompare_afterPartial]
    · rcases selfCompare_cases t e d with ⟨-, h⟩ | ⟨-, -, h⟩ | ⟨-, -, h⟩ <;> rw [h]
      · exact .inl rfl
      · exact .inl rfl
      · exact .inr self

/-- Logical byte 0 of a mailbox frame. -/
theorem firstByte_forgets : Forgets (firstByte d) own t own := by
  by_cases expected : lenClass d = t.params.lenClassExpected
  · refine .of_next (firstByte_expected expected) (fun m hi => ?_) (.of_idx (by simp [State.payloadByte]))
    exact firstByte_expected (s := t.afterPartial m hi own) expected
  · refine .of_next (firstByte_other expected) (fun m hi => ?_) (.of_noMailbox (.inl rfl))
    exact firstByte_other (s := t.afterPartial m hi own) expected

/-- A data byte of a mailbox frame. -/
theorem mailboxData_forgets (held : HoldsOwnByte own t) (mailbox : t.rxMode = .store ∨ t.rxMode = .drop) :
    ∃ own', Forgets (mailboxData d) own t own' := by
  by_cases first : t.rxIdx.toNat = 0
  · refine ⟨own, (firstByte_forgets d).congr (mailboxData_first first d) fun m hi => ?_⟩
    exact mailboxData_first (s := t.afterPartial m hi own) first d
  by_cases payload : t.rxIdx.toNat < 16
  · have notFirst : t.rxIdx.toNat = 0 → lenClass d = t.params.lenClassExpected := fun zero => absurd zero first
    refine ⟨own, .of_next (mailboxData_payload payload notFirst) (fun m hi => ?_) (.of_idx ?_)⟩
    · rw [← payloadByte_afterPartial]
      exact mailboxData_payload (s := t.afterPartial m hi own) payload notFirst
    · simp [State.payloadByte]; omega
  by_cases high : t.rxIdx.toNat = 16
  · refine ⟨true, .of_next (mailboxData_crcHigh high d) (fun m hi => ?_) fun _ _ => rfl⟩
    rw [← crcHighByte_afterPartial]
    exact mailboxData_crcHigh (s := t.afterPartial m hi own) high d
  by_cases low : t.rxIdx.toNat = 17
  · obtain rfl := held mailbox low
    refine ⟨true, .of_next (mailboxData_crcLow low d) (fun m hi => ?_) fun _ _ => rfl⟩
    rw [mailboxData_crcLow (s := t.afterPartial m hi true) low, completeFrame_afterPartial]
  · have past : 17 < t.rxIdx.toNat := by omega
    have stops := mailboxData_pastFrame past d
    refine ⟨own, .of_stop (fun u next => by simp [stops] at next) fun m hi => ?_⟩
    exact (mailboxData_pastFrame (s := t.afterPartial m hi own) past d).trans stops.symm

/-- A data byte. -/
theorem receiveData_forgets (held : HoldsOwnByte own t) : ∃ own', Forgets (receiveData d) own t own' := by
  by_cases mid : t.rxMode = .listen
  · exact ⟨own, .of_next (receiveData_listen d mid) (fun m hi => receiveData_listen d mid) held⟩
  · rcases RxMode.of_ne_listen mid with self | mailbox
    · have forgets := selfData_forgets (t := { t with rxEsc := false }) (own := own) d self
      exact ⟨own, forgets.congr (receiveData_self d self) fun m hi => receiveData_self d self⟩
    · obtain ⟨own', forgets⟩ := mailboxData_forgets (t := { t with rxEsc := false }) d held mailbox
      exact ⟨own', forgets.congr (receiveData_mailbox d mailbox) fun m hi => receiveData_mailbox d mailbox⟩

end DataByte

/-! ## Received bytes -/

/-- A frame that has just started waits for its first byte. -/
theorem syncFrame_holdsOwnByte (t : State) (own : Bool) : HoldsOwnByte own t.syncFrame :=
  .of_idx (by simp [State.syncFrame])

/-- A received byte. -/
theorem receiveByte_forgets {t : State} {own : Bool} (held : HoldsOwnByte own t) (b : Byte) :
    ∃ own', Forgets (receiveByte b) own t own' := by
  have symbol : ∃ own', Forgets (receiveSymbol (decodeSymbol t.params b t.rxEsc).1) own t own' := by
    cases (decodeSymbol t.params b t.rxEsc).1 with
    | sync =>
      refine ⟨own, .of_next rfl (fun m hi => ?_) (syncFrame_holdsOwnByte t own)⟩
      exact congrArg _ (syncFrame_afterPartial t m hi own)
    | none =>
      refine ⟨own, .of_next rfl (fun m hi => ?_) ?_⟩
      · by_cases mode : t.rxMode = .listen <;> simp [receiveSymbol, State.afterPartial, mode]
      · by_cases mode : t.rxMode = .listen
        · rw [if_pos mode]; exact held
        · rw [if_neg mode]; exact held
    | data d => exact receiveData_forgets d held
  obtain ⟨own', forgets⟩ := symbol
  exact ⟨own', forgets.congr (receiveByte_eq b t) fun m hi => receiveByte_eq b (t.afterPartial m hi own)⟩

/-- Received bytes one after the other. -/
theorem receiveAll_forgets {t : State} {own : Bool} (held : HoldsOwnByte own t) (bs : List Byte) :
    ∃ own', Forgets (receiveAll bs) own t own' := by
  induction bs generalizing t own with
  | nil => exact ⟨own, .of_next rfl (fun _ _ => rfl) held⟩
  | cons b bs ih =>
    obtain ⟨own₁, first, between⟩ := receiveByte_forgets held b
    by_cases goesOn : ∃ u, receiveByte b t = .next u
    · obtain ⟨u, run⟩ := goesOn
      obtain ⟨own₂, rest, after⟩ := ih (between u run)
      refine ⟨own₂, fun m hi => ?_, fun v => ?_⟩
      · rw [receiveAll_cons, first, receiveAll_cons, run]; exact rest m hi
      · rw [receiveAll_cons, run]; exact after v
    · refine ⟨own, .of_stop (fun v next => ?_) fun m hi => ?_⟩
      · obtain ⟨u, run, -⟩ := andThen_eq_next.mp next
        exact goesOn ⟨u, run⟩
      · rw [receiveAll_cons, first, receiveAll_cons]
        cases run : receiveByte b t with
        | next u => exact absurd ⟨u, run⟩ goesOn
        | fault e => rfl
        | refused e => rfl

/-- Received bytes leave the parameters as they are (10_state.md R44). -/
theorem receiveAll_params {bs : List Byte} {s t : State} (run : receiveAll bs s = .next t) : t.params = s.params := by
  induction bs generalizing s with
  | nil => rw [next_inj.mp run]
  | cons b bs ih =>
    obtain ⟨u, first, rest⟩ := andThen_eq_next.mp run
    rw [ih rest, receiveByte_frame first]

/-- A SYNC, whatever frame it cuts off (44_arbiter_receive.md R201). -/
theorem syncFrame_of_partial {s : State} (listen : s.rxMode = .listen) (m : RxMode) (idx : BitVec 5) (esc : Bool)
    (crc : Word) (hi : Byte) :
    ({ s with rxMode := m, rxIdx := idx, rxEsc := esc, rxCrc := crc, rxCrchi := hi } : State).syncFrame =
      s.syncFrame.afterPartial m hi false := by
  simp [State.syncFrame, State.afterPartial, State.modeAtSync, listen]

/-- Settles O34: the SYNC leaves of the partial frame only what `afterPartial` says, and the bytes after it keep it so.
The held byte at the end, if a frame has put one there, is the same in every run. -/
theorem syncForgetsThePartialFrame : Obligations.SyncForgetsThePartialFrame := by
  intro bs s listen
  have started (t : State) : receiveAll (t.params.frameSync :: bs) t = receiveAll bs t.syncFrame := by
    rw [receiveAll_cons, receiveByte_sync, andThen_next]
  obtain ⟨own, same, after⟩ := receiveAll_forgets (syncFrame_holdsOwnByte s false) bs
  have runs (m : RxMode) (idx : BitVec 5) (esc : Bool) (crc : Word) (hi : Byte) :
      receiveAll (s.params.frameSync :: bs)
          { s with rxMode := m, rxIdx := idx, rxEsc := esc, rxCrc := crc, rxCrchi := hi } =
        andThen (receiveAll bs s.syncFrame) fun t => .next (t.afterPartial m hi own) := by
    rw [← same, ← syncFrame_of_partial listen m idx esc crc hi]
    exact started { s with rxMode := m, rxIdx := idx, rxEsc := esc, rxCrc := crc, rxCrchi := hi }
  simp only [started s]
  cases run : receiveAll bs s.syncFrame with
  | next u =>
    have params : u.params = s.params := receiveAll_params (s := s.syncFrame) run
    refine ⟨if own then some u.rxCrchi else none, fun m idx esc crc hi => ?_, fun t next mailbox last => ?_⟩
    · rw [runs, run]
      cases own <;> simp [State.afterPartial, params]
    · obtain rfl := next_inj.mp next
      rw [after u run mailbox last]; rfl
  | fault e => exact ⟨none, fun m idx esc crc hi => by rw [runs, run]; rfl, fun t next => by cases next⟩
  | refused e => exact ⟨none, fun m idx esc crc hi => by rw [runs, run]; rfl, fun t next => by cases next⟩

end Sys2Proof.Machine
end

section
/-! PROOFS. The timing monitor (spec 42_timing_monitor.md R142 to R146): what one TMR phase does, field by field, and
what it has counted and seen after several. -/

namespace Sys2Proof.Machine

/-! ## One TMR phase -/

/-- The two fields of the octet timer (R142). -/
theorem timerStep_eq (s : State) :
    timerStep s =
      { s with
        tmrCnt := if s.reqTimerReset then 0 else if s.tmrCnt < s.params.octetTicks then s.tmrCnt + 1 else s.tmrCnt
        octFlag :=
          if s.reqTimerReset then false
          else if s.tmrCnt < s.params.octetTicks ∧ s.tmrCnt + 1 = s.params.octetTicks then true
          else s.octFlag } := by
  obtain ⟨reset, eq⟩ | ⟨noReset, below, eq⟩ | ⟨noReset, full, eq⟩ := timerStep_cases s <;> rw [eq]
  · simp [reset]
  · by_cases last : s.tmrCnt + 1 = s.params.octetTicks <;> simp [noReset, below, last]
  · ext1 <;> simp [noReset, Nat.not_lt.mpr full]

/-- The three fields of the edge monitor (R143, R144). -/
theorem edgeStep_fields (s : State) :
    edgeStep s =
      { s with
        edgeArmed := if s.reqEdgeArm then true else if s.reqEdgeDisarm then false else s.edgeArmed
        edgeSeen :=
          if s.reqEdgeArm then false
          else if s.reqEdgeDisarm then s.edgeSeen
          else if s.edgeArmed ∧ s.inp.rxLine ≠ s.linePrev then true
          else s.edgeSeen
        linePrev :=
          if s.reqEdgeArm then s.inp.rxLine
          else if s.reqEdgeDisarm then s.linePrev
          else if s.edgeArmed then s.inp.rxLine
          else s.linePrev } := by
  obtain ⟨arm, eq⟩ | ⟨noArm, disarm, eq⟩ | ⟨noArm, noDisarm, armed, eq⟩ | ⟨noArm, noDisarm, rests, eq⟩ :=
    edgeStep_cases s <;> rw [eq]
  · simp [arm]
  · simp [noArm, disarm]
  · by_cases same : s.inp.rxLine = s.linePrev <;> simp [noArm, noDisarm, armed, same]
  · ext1 <;> simp [noArm, noDisarm, rests]

/-- Settles O49: the timer's step and the monitor's step write different fields, and the monitor reads none of the
timer's. -/
theorem timingMonitorStep : Obligations.TimingMonitorStep := by
  intro s
  rw [tmrPhase, edgeStep_fields, timerStep_eq]
  rfl

/-! ## The octet timer -/

/-- A reset request restarts the timer (R142). -/
theorem tmrPhase_restarts {s : State} (reset : s.reqTimerReset = true) :
    (tmrPhase s).tmrCnt = 0 ∧ (tmrPhase s).octFlag = false := by
  rw [timingMonitorStep s]; simp [reset]

/-- Below OCTET_TICKS the timer counts one (R142). -/
theorem tmrPhase_counts {s : State} (noReset : s.reqTimerReset = false) (below : s.tmrCnt < s.params.octetTicks) :
    (tmrPhase s).tmrCnt = s.tmrCnt + 1 := by
  rw [timingMonitorStep s]; simp [noReset, below]

/-- The timer once `n` TMR phases have counted since a reset: the count saturates at OCTET_TICKS, where the flag goes
up, and no reset is requested (R142). -/
structure CountedTicks (ticks n : Nat) (s : State) : Prop where
  octetTicks : s.params.octetTicks = ticks
  noReset : s.reqTimerReset = false
  count : s.tmrCnt = min n ticks
  flag : s.octFlag = decide (ticks ≤ n)

/-- A reset request starts the count. -/
theorem countedTicks_zero {s : State} (positive : 1 ≤ s.params.octetTicks) (reset : s.reqTimerReset = true) :
    CountedTicks s.params.octetTicks 0 (tmrPhase s) := by
  obtain ⟨count, flag⟩ := tmrPhase_restarts reset
  exact
    { octetTicks := congrArg Params.octetTicks (tmrPhase_keeps s).params
      noReset := rfl
      count := count.trans (Nat.zero_min _).symm
      flag := flag.trans (decide_eq_false (Nat.not_le_of_lt positive)).symm }

/-- One more TMR phase counts one, or leaves the count at OCTET_TICKS. -/
theorem CountedTicks.succ {ticks n : Nat} {s : State} (h : CountedTicks ticks n s) :
    CountedTicks ticks (n + 1) (tmrPhase s) := by
  obtain ⟨octetTicks, noReset, count, flag⟩ := h
  refine ⟨(congrArg Params.octetTicks (tmrPhase_keeps s).params).trans octetTicks, rfl, ?_, ?_⟩ <;>
    rw [timingMonitorStep s] <;> simp only [noReset, octetTicks, count, flag, Bool.false_eq_true, if_false]
  · split <;> omega
  · split
    next arrives => exact (decide_eq_true (by omega)).symm
    next => exact decide_eq_decide.mpr (by omega)

/-- The timer after a reset request and `n` further TMR phases. -/
theorem countedTicks_iterate {s : State} (positive : 1 ≤ s.params.octetTicks) (reset : s.reqTimerReset = true) (n : Nat) :
    CountedTicks s.params.octetTicks n (tmrPhase^[n + 1] s) := by
  induction n with
  | zero => exact countedTicks_zero positive reset
  | succ n ih => rw [Function.iterate_succ_apply']; exact ih.succ

/-- Settles O50, by induction on the TMR phases since the reset. -/
theorem octetFlagAfterOctetTicks : Obligations.OctetFlagAfterOctetTicks := by
  intro s n positive
  have counted := countedTicks_iterate (s := { s with reqTimerReset := true }) positive rfl n
  exact ⟨counted.count, counted.flag⟩

/-! ## The edge monitor -/

/-- The monitor watches the line: it is armed, nothing else is asked of it, and it has last sampled `level` (R144). -/
structure Watching (level : Bool) (s : State) : Prop where
  armed : s.edgeArmed = true
  noArm : s.reqEdgeArm = false
  noDisarm : s.reqEdgeDisarm = false
  sampled : s.linePrev = level

/-- Arming samples the line and forgets the edges seen before (R143). -/
theorem tmrPhase_arms {s : State} (arm : s.reqEdgeArm = true) :
    Watching s.inp.rxLine (tmrPhase s) ∧ (tmrPhase s).edgeSeen = false := by
  rw [timingMonitorStep s]
  exact ⟨by constructor <;> simp [arm], by simp [arm]⟩

/-- Watching takes the next sample and compares it with the one before (R144). -/
theorem Watching.next_sample {level : Bool} {s : State} (h : Watching level s) :
    Watching s.inp.rxLine (tmrPhase s) ∧ (tmrPhase s).edgeSeen = (s.edgeSeen || s.inp.rxLine != level) := by
  obtain ⟨armed, noArm, noDisarm, sampled⟩ := h
  rw [timingMonitorStep s]
  refine ⟨by constructor <;> simp [armed, noArm, noDisarm], ?_⟩
  by_cases same : s.inp.rxLine = level <;> simp [armed, noArm, noDisarm, sampled, same]

/-- A watching monitor sees an edge among further samples exactly if one of them differs from the last sample: the first
that does differs from the one before it. -/
theorem Watching.edgeSeen_watchLine {level : Bool} {lines : List Bool} {s : State} (h : Watching level s) :
    (watchLine lines s).edgeSeen = (s.edgeSeen || lines.any (fun l => l != level)) := by
  induction lines generalizing level s with
  | nil => simp [watchLine]
  | cons l ls ih =>
    have presented : Watching level (s.present { s.inp with rxLine := l }) := { h with }
    obtain ⟨watching, seen⟩ := presented.next_sample
    calc (watchLine (l :: ls) s).edgeSeen
        = ((s.edgeSeen || l != level) || ls.any (fun l' => l' != l)) := (ih watching).trans (congrArg (· || _) seen)
      _ = (s.edgeSeen || (l :: ls).any (fun l' => l' != level)) := by
        by_cases same : l = level
        · simp [same]
        · have differs : (l != level) = true := bne_iff_ne.mpr same
          simp [differs]

/-- Settles O51: the first sample arms the monitor, which then watches the later ones. -/
theorem edgeSeenMeansALevelChanged : Obligations.EdgeSeenMeansALevelChanged := by
  intro s first later
  obtain ⟨watching, seen⟩ :=
    tmrPhase_arms (s := ({ s with reqEdgeArm := true } : State).present { s.inp with rxLine := first }) rfl
  exact watching.edgeSeen_watchLine.trans (by rw [seen]; rfl)

end Sys2Proof.Machine
end

section
/-! PROOFS. The length of an idle check (spec 42_timing_monitor.md R145, R146; 70_reset_and_hazards.md R312). In a state
that meets the invariant the HOST phase and the RX phase of a cycle answer a next state and leave a running sequencer
and the octet timer alone, so a check waits while the timer counts and ends in the cycle that finds the flag up. -/

namespace Sys2Proof.Machine

/-! ## A cycle up to the TX phase -/

/-- A data byte inside the frame is defined in every mode (44_arbiter_receive.md R202, R204). -/
theorem receiveData_defined {s : State} (h : ReceiveSide s) (d : Byte) : ∃ t, receiveData d s = .next t := by
  by_cases listen : s.rxMode = .listen
  · exact ⟨s, receiveData_listen d listen⟩
  · have inside := h.rxIdxBound listen
    obtain self | mailbox := RxMode.of_ne_listen listen
    · obtain ⟨e, sent⟩ := logicalByte_isSome (buf := s.txbuf) (crc := s.txcrc) inside
      exact ⟨_, (receiveData_self d self).trans (selfData_of_frameByte sent)⟩
    · rw [receiveData_mailbox d mailbox]
      exact mailboxData_defined inside

/-- The RX phase answers a next state whatever byte arrives (60_exceptions.md R270). -/
theorem rxPhase_defined {s : State} (h : ReceiveSide s) : ∃ t, rxPhase s = .next t := by
  unfold rxPhase
  split
  · obtain ⟨-, eq⟩ | ⟨-, eq⟩ | ⟨d, -, eq⟩ := receiveByte_cases s.inp.rxByte s <;> rw [eq]
    · exact ⟨_, rfl⟩
    · exact ⟨_, rfl⟩
    · exact receiveData_defined h d
  · exact ⟨s, rfl⟩

/-- What the HOST phase and the RX phase of a cycle leave as it is while a send is running (10_state.md R44). -/
structure KeepsSequencer (s t : State) : Prop where
  txState : t.txState = s.txState
  tmrCnt : t.tmrCnt = s.tmrCnt
  octFlag : t.octFlag = s.octFlag
  params : t.params = s.params

/-- While a send is running, a cycle without reset comes to its TX phase with the sequencer and the timer as they were,
whatever the host does and whatever byte arrives. -/
theorem step_eq_txPhase {s : State} (inv : Inv s) (noReset : s.inp.rst = false) (busy : s.txState ≠ .idle) :
    ∃ u, KeepsSequencer s u ∧ step s = andThen (txPhase u) fun v => .next (tmrPhase v).advance := by
  have host := decodeHost_format (hostTransaction s.inp)
  obtain ⟨s1, hHost⟩ : ∃ s1, hostPhase s = .next s1 := exec_host_defined host s
  obtain ⟨s2, hRx⟩ := rxPhase_defined (hostPhase_beforeTx inv.beforeTx hHost).receiveSide
  have hostKeeps := hostPhase_keeps hHost
  have rxKeeps := rxPhase_keeps hRx
  obtain ⟨-, -, -, hostState, -⟩ := exec_host_busy host busy hHost
  refine ⟨s2, ?_, by rw [step_of_noReset noReset, cycle, hHost, andThen_next, hRx, andThen_next]⟩
  exact
    { txState := rxKeeps.txState.trans hostState
      tmrCnt := rxKeeps.tmrCnt.trans hostKeeps.tmrCnt
      octFlag := rxKeeps.octFlag.trans hostKeeps.octFlag
      params := rxKeeps.params.trans hostKeeps.params }

/-! ## A cycle of an idle check -/

/-- A send is running during an idle check. -/
theorem TxState.ne_idle_of_checkingIdle {x : TxState} (checking : x.checkingIdle = true) : x ≠ .idle := by
  rintro rfl; cases checking

/-- The row of a check's wait state ends the check towards one of two other states (43_arbiter_send.md R162, R169,
R173). -/
theorem exec_txRow_of_checkingIdle {x : TxState} (checking : x.checkingIdle = true) :
    ∃ busy clear, busy ≠ x ∧ clear ≠ x ∧ exec (txRow x) = finishIdleCheck busy clear := by
  cases x
  case senseWait => exact ⟨.senseStart, .txBegin, by decide, by decide, rfl⟩
  case boIdleWait => exact ⟨.boIdleStart, .boRandStart, by decide, by decide, rfl⟩
  case boCheckWait => exact ⟨.boRandStart, .senseStart, by decide, by decide, rfl⟩
  all_goals cases checking

/-- Before the flag is up the TX phase of a check only clears its wires. -/
theorem txPhase_waits {s : State} (checking : s.txState.checkingIdle = true) (low : s.octFlag = false) :
    txPhase s = .next s.clearTxWires := by
  obtain ⟨busy, clear, -, -, row⟩ := exec_txRow_of_checkingIdle checking
  rw [txPhase, row, finishIdleCheck, State.clearTxWires_octFlag, low]
  rfl

/-- With the flag up the TX phase of a check leaves the wait state, whatever the verdict is. -/
theorem txPhase_endsCheck {s : State} (checking : s.txState.checkingIdle = true) (high : s.octFlag = true) :
    ∃ t, txPhase s = .next t ∧ t.txState ≠ s.txState := by
  obtain ⟨busy, clear, leavesBusy, leavesClear, row⟩ := exec_txRow_of_checkingIdle checking
  rw [txPhase, row, finishIdleCheck, State.clearTxWires_octFlag, if_pos high]
  refine ⟨_, rfl, ?_⟩
  rw [State.goTo_txState]
  split
  · exact leavesBusy
  · exact leavesClear

/-- A cycle of a check before OCTET_TICKS stays in the wait state and counts one (R142, R145). -/
theorem step_waits {s : State} (inv : Inv s) (noReset : s.inp.rst = false) (checking : s.txState.checkingIdle = true)
    (below : s.tmrCnt < s.params.octetTicks) :
    ∃ t, step s = .next t ∧ t.txState = s.txState ∧ t.tmrCnt = s.tmrCnt + 1 := by
  obtain ⟨u, keeps, eq⟩ := step_eq_txPhase inv noReset (TxState.ne_idle_of_checkingIdle checking)
  have low : u.octFlag = false := by
    rw [keeps.octFlag, inv.timerRange.2]; exact decide_eq_false (Nat.ne_of_lt below)
  have counts : (tmrPhase u.clearTxWires).tmrCnt = u.tmrCnt + 1 :=
    tmrPhase_counts rfl (by simpa [keeps.tmrCnt, keeps.params] using below)
  rw [txPhase_waits (by rw [keeps.txState]; exact checking) low, andThen_next] at eq
  refine ⟨_, eq, ?_, ?_⟩
  · rw [State.advance_txState, (tmrPhase_keeps _).txState, State.clearTxWires_txState, keeps.txState]
  · rw [State.advance_tmrCnt, counts, keeps.tmrCnt]

/-- The cycle of a check that starts at OCTET_TICKS leaves the wait state (R145). -/
theorem step_endsCheck {s : State} (inv : Inv s) (noReset : s.inp.rst = false)
    (checking : s.txState.checkingIdle = true) (elapsed : s.tmrCnt = s.params.octetTicks) :
    ∃ t, step s = .next t ∧ t.txState ≠ s.txState := by
  obtain ⟨u, keeps, eq⟩ := step_eq_txPhase inv noReset (TxState.ne_idle_of_checkingIdle checking)
  have high : u.octFlag = true := by rw [keeps.octFlag, inv.timerRange.2]; exact decide_eq_true elapsed
  obtain ⟨v, hTx, leaves⟩ := txPhase_endsCheck (by rw [keeps.txState]; exact checking) high
  rw [hTx, andThen_next] at eq
  refine ⟨_, eq, ?_⟩
  rw [State.advance_txState, (tmrPhase_keeps v).txState, ← keeps.txState]
  exact leaves

/-! ## A run through an idle check -/

/-- After a run that answers a next state, a run of one more cycle is a step. -/
theorem run_succ_of_run {M : Host.Core} {k : Nat} {s t : M.State} (run : M.run k s = .next t) :
    M.run (k + 1) s = M.step t := by
  induction k generalizing s with
  | zero =>
    cases run
    rw [Host.Core.run]
    cases M.step t <;> rfl
  | succ k ih =>
    rw [Host.Core.run] at run ⊢
    cases first : M.step s with
    | next u => rw [first] at run; exact ih run
    | fault e => rw [first] at run; cases run
    | refused e => rw [first] at run; cases run

/-- The next cycle is no reset if an input is known and no known input is one. -/
theorem inp_noReset {s : State} (known : 0 < s.feed.length) (noReset : ∀ i ∈ s.feed, i.rst = false) :
    s.inp.rst = false := by
  have first : s.inp ∈ s.feed := by
    rw [State.inp]
    cases feed : s.feed with
    | nil => rw [feed] at known; cases known
    | cons i is => exact List.mem_cons_self
  exact noReset _ first

/-- Where a check that was in state `s` with the timer just reset is after `k` cycles of waiting. -/
structure WaitedFor (s : State) (k : Nat) (t : State) : Prop where
  inv : Inv t
  txState : t.txState = s.txState
  tmrCnt : t.tmrCnt = k
  params : t.params = s.params
  feed : t.feed = s.feed.drop k

section IdleCheck

variable {s : State} (checking : s.txState.checkingIdle = true)
  (known : s.params.octetTicks + 1 ≤ s.feed.length) (noReset : ∀ i ∈ s.feed, i.rst = false)

include known noReset in
/-- A waiting check's next cycle is no reset. -/
theorem WaitedFor.inp_noReset {k : Nat} {t : State} (h : WaitedFor s k t) (inTime : k ≤ s.params.octetTicks) :
    t.inp.rst = false := by
  refine Machine.inp_noReset ?_ fun i mem => noReset i (List.mem_of_mem_drop (h.feed ▸ mem))
  rw [h.feed, List.length_drop]
  omega

include checking known noReset

/-- Before OCTET_TICKS the check waits one more cycle. -/
theorem WaitedFor.succ {k : Nat} {t : State} (h : WaitedFor s k t) (below : k < s.params.octetTicks) :
    ∃ u, step t = .next u ∧ WaitedFor s (k + 1) u := by
  have noReset' := h.inp_noReset known noReset (Nat.le_of_lt below)
  obtain ⟨u, next, state, count⟩ :=
    step_waits h.inv noReset' (by rw [h.txState]; exact checking) (by rw [h.tmrCnt, h.params]; exact below)
  obtain ⟨params, feed, -⟩ := stepKeepsTheParameters t u next
  exact ⟨u, next,
    { inv := stepKeepsTheInvariant t u h.inv next
      txState := state.trans h.txState
      tmrCnt := by rw [count, h.tmrCnt]
      params := params.trans h.params
      feed := by rw [feed, h.feed, List.tail_drop] }⟩

/-- A check entered with the timer just reset waits up to OCTET_TICKS cycles. -/
theorem run_waits (inv : Inv s) (start : s.tmrCnt = 0) {k : Nat} (inTime : k ≤ s.params.octetTicks) :
    ∃ t, core.run k s = .next t ∧ WaitedFor s k t := by
  induction k with
  | zero => exact ⟨s, rfl, inv, rfl, start, rfl, rfl⟩
  | succ k ih =>
    obtain ⟨t, run, waited⟩ := ih (Nat.le_of_succ_le inTime)
    obtain ⟨u, next, waited'⟩ := waited.succ checking known noReset inTime
    exact ⟨u, (run_succ_of_run run).trans next, waited'⟩

/-- It leaves the wait state in the cycle after those. -/
theorem run_endsCheck (inv : Inv s) (start : s.tmrCnt = 0) :
    ∃ t, core.run (s.params.octetTicks + 1) s = .next t ∧ t.txState ≠ s.txState := by
  obtain ⟨t, run, waited⟩ := run_waits checking known noReset inv start (Nat.le_refl _)
  obtain ⟨u, next, leaves⟩ :=
    step_endsCheck waited.inv (waited.inp_noReset known noReset (Nat.le_refl _))
      (by rw [waited.txState]; exact checking) (by rw [waited.tmrCnt, waited.params])
  exact ⟨u, (run_succ_of_run run).trans next, by rw [← waited.txState]; exact leaves⟩

end IdleCheck

/-- Settles O52, by induction on the cycles of waiting: the timer counts them, and the flag it raises ends the check. -/
theorem idleCheckTakesOctetTicksPlusOne : Obligations.IdleCheckTakesOctetTicksPlusOne := by
  intro s inv checking start known noReset
  refine ⟨fun k inTime => ?_, run_endsCheck checking known noReset inv start⟩
  obtain ⟨t, run, waited⟩ := run_waits checking known noReset inv start inTime
  exact ⟨t, run, waited.txState, waited.tmrCnt⟩

end Sys2Proof.Machine
end

section
/-! PROOFS. The rows of the transmit sequencer (spec 43_arbiter_send.md R160 to R177), each on its own: the starts and
the ends of an idle check, the ends of an attempt, and the backoff draw and its count. -/

namespace Sys2Proof.Machine

/-! ## Idle checks -/

/-- Settles O40: the three START rows make one shared start, and TX_BEGIN makes the start of an attempt. -/
theorem idleStartsAndAttemptBegin : Obligations.IdleStartsAndAttemptBegin :=
  fun _ => ⟨rfl, rfl, rfl, rfl, rfl⟩

/-- The end of an idle check, by the fields it writes (R162, R169, R173). -/
theorem finishIdleCheck_eq (busy clear : TxState) (s : State) :
    finishIdleCheck busy clear s =
      .next
        (if s.octFlag then { s with reqEdgeDisarm := true, txState := if s.edgeSeen then busy else clear } else s) := rfl

/-- Settles O41: the three WAIT rows are the shared end of an idle check, each with its two verdicts. -/
theorem idleCheckVerdicts : Obligations.IdleCheckVerdicts :=
  fun s =>
    ⟨finishIdleCheck_eq .senseStart .txBegin s, finishIdleCheck_eq .boIdleStart .boRandStart s,
      finishIdleCheck_eq .boRandStart .senseStart s⟩

/-! ## The ends of an attempt -/

/-- A flagged collision is tested first in TX_SEND, TX_DRAIN and ECHO_WAIT (R164, R165, R167). -/
theorem exec_flagged {s : State} {i : Instr} (flagged : s.collision = true)
    (row : i = .txsTxSend ∨ i = .txsTxDrain ∨ i = .txsEchoWait) : exec i s = .next (s.collide false) := by
  obtain rfl | rfl | rfl := row
  · exact if_pos flagged
  · exact congrArg _ (if_pos flagged)
  · exact congrArg _ (if_pos flagged)

/-- Settles O42: all three rows run Collide, which does not count here what RX has counted. -/
theorem flaggedCollisionEndsTheAttempt : Obligations.FlaggedCollisionEndsTheAttempt :=
  fun _ _ flagged row => exec_flagged flagged row

/-- ECHO_WAIT ends the send exactly when the echo is confirmed and no collision is flagged: of its outcomes only Succeed
goes to IDLE (R167, R175). -/
theorem execTxsEchoWait_toIdle {s t : State} (state : s.txState = .echoWait) (he : execTxsEchoWait s = .next t)
    (idle : t.txState = .idle) : s.collision = false ∧ s.echoOk = true ∧ t = s.succeed := by
  rw [execTxsEchoWait, next_inj] at he
  split at he
  next => subst he; cases idle
  next noCollision =>
    split at he
    next confirmed => exact ⟨by simpa using noCollision, confirmed, he.symm⟩
    next =>
      split at he
      next => split at he <;> subst he <;> simp [state] at idle
      next => subst he; simp [state] at idle

/-- Settles O46: Collide and Succeed are the named actions of R174 and R175, written out. -/
theorem drainAndEchoStates : Obligations.DrainAndEchoStates :=
  fun _ => ⟨rfl, rfl, rfl⟩

/-! ## Backoff -/

/-- The window table of R176. -/
theorem boWindow_table {b : BitVec 4} (bound : b.toNat ≤ 8) :
    [1, 1, 2, 2, 4, 4, 8, 8, 16][b.toNat]? = some (boWindow b) := by
  revert b; decide

/-- Settles O47: `boWindow` is the table's W, and a remainder modulo W is below it. -/
theorem backoffDraw : Obligations.BackoffDraw := by
  intro s bound
  have drawn := boDraw_toNat s.params s.bo s.inp.rnd bound
  have inWindow := Nat.mod_lt (s.inp.rnd.toNat % 2 ^ s.params.rndW) (boWindow_pos s.bo)
  exact ⟨boWindow s.bo, boDraw s.params s.bo s.inp.rnd, boWindow_table bound, drawn, by omega, by omega, rfl⟩

/-- The last octet-time of a random wait is the one at 1 (R171). -/
theorem boWait_pred_eq_zero {n : BitVec 5} : n - 1 = 0 ↔ n = 1 := by
  revert n; decide

/-- Settles O48: the count reaches 0 from 1 only. -/
theorem randomWaitCountsDown : Obligations.RandomWaitCountsDown := by
  intro s
  show execTxsBoRandWait s = _
  simp only [execTxsBoRandWait, boWait_pred_eq_zero]
  by_cases last : s.boWait = 1
  · simp [last]
  · rw [if_neg last, if_neg last]
    rfl

end Sys2Proof.Machine
end

section
/-! PROOFS. A cycle of a running send (spec 43_arbiter_send.md R178 to R182): what it leaves as it is up to its TX phase,
which of its moves ends the send, and what a mismatch of the echo leads to. -/

namespace Sys2Proof.Machine

/-! ## A cycle that answers a next state -/

/-- A TXSTATE row is defined except past the frame in TX_SEND (60_exceptions.md R270; log 8). -/
theorem exec_txRow_defined {s : State} (inside : s.txState = .txSend → s.txPos.toNat ≤ 18) :
    ∃ t, exec (txRow s.txState) s = .next t := by
  cases state : s.txState
  case txSend =>
    show ∃ t, execTxsTxSend s = .next t
    unfold execTxsTxSend
    split
    · exact ⟨_, rfl⟩
    · split
      · obtain ⟨u, handedOver⟩ := nextWire_defined (inside state)
        rw [handedOver]
        exact ⟨_, rfl⟩
      · exact ⟨_, rfl⟩
  all_goals exact ⟨_, rfl⟩

/-- From a state that meets the invariant a step answers a next state, whatever the inputs (60_exceptions.md R270). -/
theorem Inv.step_defined {s : State} (inv : Inv s) : ∃ t, step s = .next t := by
  cases reset : s.inp.rst with
  | true => exact ⟨_, step_eq_next.mpr (.inl ⟨reset, rfl⟩)⟩
  | false =>
    obtain ⟨s1, hHost⟩ : ∃ s1, hostPhase s = .next s1 := exec_host_defined (decodeHost_format _) s
    have afterHost := hostPhase_beforeTx inv.beforeTx hHost
    obtain ⟨s2, hRx⟩ := rxPhase_defined afterHost.receiveSide
    have afterRx := rxPhase_beforeTx afterHost hRx
    obtain ⟨s3, hTx⟩ : ∃ s3, txPhase s2 = .next s3 :=
      exec_txRow_defined (s := s2.clearTxWires) afterRx.sendSide.sendUnfinished
    exact ⟨_, step_eq_next.mpr (.inr ⟨reset, s1, s2, s3, hHost, hRx, hTx, rfl⟩)⟩

/-- The phases of a cycle without reset (20_memory.md R71). -/
theorem phases_of_step {s t : State} (noReset : s.inp.rst = false) (h : step s = .next t) :
    ∃ s1 s2 s3, hostPhase s = .next s1 ∧ rxPhase s1 = .next s2 ∧ txPhase s2 = .next s3 ∧
      (tmrPhase s3).advance = t := by
  obtain ⟨reset, -⟩ | ⟨-, phases⟩ := step_eq_next.mp h
  · rw [noReset] at reset; cases reset
  · exact phases

/-- The input of the cycle is one of the model's own fields. -/
theorem KeepsOwnFields.inp {s t : State} (h : KeepsOwnFields s t) : t.inp = s.inp := by
  rw [State.inp, State.inp, h.feed, h.draws]

/-! ## Up to the TX phase -/

/-- A received byte never takes a flagged collision back (44_arbiter_receive.md R201, R205). -/
theorem receiveByte_flagged {b : Byte} {s t : State} (hb : receiveByte b s = .next t) (flagged : s.collision = true) :
    t.collision = true := by
  obtain ⟨-, eq⟩ | ⟨-, eq⟩ | ⟨d, -, eq⟩ := receiveByte_cases b s <;> rw [eq] at hb
  · rw [next_inj] at hb; subst hb
    simp [flagged]
  · rw [next_inj] at hb; subst hb
    split <;> exact flagged
  · obtain ⟨-, rfl⟩ | ⟨-, hd⟩ | ⟨-, hd⟩ := receiveData_eq_next hb
    · exact flagged
    · obtain ⟨e, -, rfl⟩ := selfData_eq_next hd
      obtain ⟨-, eq⟩ | ⟨-, -, eq⟩ | ⟨-, -, eq⟩ := selfCompare_cases { s with rxEsc := false } e d <;> rw [eq]
      all_goals exact flagged
    · obtain ⟨-, hd⟩ | ⟨-, -, rfl⟩ | ⟨-, rfl⟩ | ⟨-, rfl⟩ := mailboxData_eq_next hd
      · obtain eq | eq := firstByte_cases d { s with rxEsc := false } <;> rw [eq, next_inj] at hd <;> subst hd <;>
          exact flagged
      · exact flagged
      · exact flagged
      · obtain eq | ⟨-, eq⟩ | ⟨-, eq⟩ := completeFrame_cases { s with rxEsc := false } d <;> rw [eq] <;> exact flagged

/-- In LISTEN no received byte flags a collision: a SYNC starts the first frame, and the rest is ignored
(44_arbiter_receive.md R201, R202). -/
theorem receiveByte_listen_collision {b : Byte} {s t : State} (hb : receiveByte b s = .next t)
    (listen : s.rxMode = .listen) : t.collision = s.collision := by
  obtain ⟨-, eq⟩ | ⟨-, eq⟩ | ⟨d, -, eq⟩ := receiveByte_cases b s <;> rw [eq] at hb
  · rw [next_inj] at hb; subst hb
    simp [listen]
  · rw [next_inj, if_pos listen] at hb; subst hb
    rfl
  · rw [receiveData_listen d listen, next_inj] at hb; subst hb
    rfl

/-- What the HOST and RX phases of a cycle leave as it is while a send is running, and what they can do to `collision`. -/
structure KeepsSend (s t : State) : Prop extends KeepsSequencer s t, KeepsOwnFields s t where
  statSent : t.statSent = s.statSent
  txPos : t.txPos = s.txPos
  de : t.de = s.de
  edgeArmed : t.edgeArmed = s.edgeArmed
  edgeSeen : t.edgeSeen = s.edgeSeen
  linePrev : t.linePrev = s.linePrev
  flagged : s.collision = true → t.collision = true
  unflagged : s.rxMode = .listen → t.collision = s.collision

/-- The HOST and RX phases leave a running send alone (44_arbiter_receive.md R200; 45_host_interface.md R239). -/
theorem keepsSend_of_phases {s s1 s2 : State} (busy : s.txState ≠ .idle) (hHost : hostPhase s = .next s1)
    (hRx : rxPhase s1 = .next s2) : KeepsSend s s2 := by
  have host := hostPhase_keeps hHost
  have rx := rxPhase_keeps hRx
  obtain ⟨-, -, -, hostState, -⟩ := exec_host_busy (decodeHost_format _) busy hHost
  have flags : (s.collision = true → s2.collision = true) ∧ (s.rxMode = .listen → s2.collision = s.collision) := by
    rw [← host.collision, ← host.rxMode]
    obtain ⟨-, hb⟩ | ⟨-, rfl⟩ := rxPhase_eq_next hRx
    · exact ⟨receiveByte_flagged hb, receiveByte_listen_collision hb⟩
    · exact ⟨id, fun _ => rfl⟩
  exact
    { host.ownFields.trans rx.ownFields with
      txState := rx.txState.trans hostState
      tmrCnt := rx.tmrCnt.trans host.tmrCnt
      octFlag := rx.octFlag.trans host.octFlag
      statSent := rx.statSent.trans host.statSent
      txPos := rx.txPos.trans host.txPos
      de := rx.de.trans host.de
      edgeArmed := rx.edgeArmed.trans host.edgeArmed
      edgeSeen := rx.edgeSeen.trans host.edgeSeen
      linePrev := rx.linePrev.trans host.linePrev
      flagged := flags.1
      unflagged := flags.2 }

/-- A cycle of a running send comes to its TX phase with the send as it was. -/
theorem busy_step_eq_next {s t : State} (noReset : s.inp.rst = false) (busy : s.txState ≠ .idle)
    (h : step s = .next t) : ∃ u v, KeepsSend s u ∧ txPhase u = .next v ∧ (tmrPhase v).advance = t := by
  obtain ⟨s1, u, v, hHost, hRx, hTx, rfl⟩ := phases_of_step noReset h
  exact ⟨u, v, keepsSend_of_phases busy hHost hRx, hTx, rfl⟩

/-! ## The end of a send -/

/-- The one move from a running send to IDLE is Succeed, from ECHO_WAIT (R167, R175, R180). -/
theorem exec_txRow_toIdle {s t : State} (busy : s.txState ≠ .idle) (he : exec (txRow s.txState) s = .next t)
    (idle : t.txState = .idle) :
    s.txState = .echoWait ∧ s.collision = false ∧ s.echoOk = true ∧ t = s.succeed := by
  have state : s.txState = .echoWait := by
    cases exec_txRow_move he with
    | stay => exact absurd idle busy
    | startCheck quiet | endCheck quiet => exact absurd idle quiet.busy.2
    | @handOver pos => by_cases last : pos = Config.txLastPos <;> simp [last] at idle
    | echoTick state | echoTimeout state | succeed state => exact state
    | boTick state => exact absurd idle busy
    | beginAttempt | drained | startEcho | collide | draw | boDone => cases idle
  rw [state] at he
  exact ⟨state, execTxsEchoWait_toIdle state he idle⟩

/-- Settles O57: the HOST and RX phases leave the sequencer running, and of the TX phase's moves only Succeed ends the
send. -/
theorem onlySuccessEndsASend : Obligations.OnlySuccessEndsASend := by
  intro s t noReset busy h idle
  obtain ⟨u, v, keeps, hTx, rfl⟩ := busy_step_eq_next noReset busy h
  obtain ⟨state, noCollision, confirmed, rfl⟩ :=
    exec_txRow_toIdle (s := u.clearTxWires) (keeps.txState ▸ busy) hTx ((tmrPhase_keeps v).txState.symm.trans idle)
  have tmr := tmrPhase_keeps u.clearTxWires.succeed
  refine ⟨keeps.txState.symm.trans state, tmr.echoOk.trans confirmed, tmr.collision.trans noCollision, tmr.txDone,
    tmr.statSent.trans ?_⟩
  rw [← keeps.params, ← keeps.statSent]
  rfl

/-! ## A mismatch of the echo -/

/-- A running attempt with a flagged collision ends in the TX phase, except in ECHO_START (R164, R165, R167, R174). -/
theorem txPhase_flagged {s : State} (flagged : s.collision = true) (attempt : s.txState.inAttempt = true)
    (notStart : s.txState ≠ .echoStart) : txPhase s = .next (s.clearTxWires.collide false) := by
  refine exec_flagged (s := s.clearTxWires) flagged ?_
  cases state : s.txState <;> rw [state] at attempt notStart
  case txSend => exact .inl rfl
  case txDrain => exact .inr (.inl rfl)
  case echoWait => exact .inr (.inr rfl)
  case echoStart => exact absurd rfl notStart
  all_goals cases attempt

/-- Another destuffed byte than the one sent at its index ends the SELF frame with a collision, flagged and counted
(44_arbiter_receive.md R204, R205). -/
theorem receiveByte_mismatch {s : State} {b d e : Byte} (self : s.rxMode = .self)
    (symbol : decodeSymbol s.params b s.rxEsc = (.data d, false))
    (sent : (logicalFrame s.txbuf s.txcrc)[s.rxIdx.toNat]? = some e) (mismatch : d ≠ e) :
    receiveByte b s = .next { ({ s with rxEsc := false } : State).flagCollision with rxMode := .listen } := by
  rw [← logicalByte_eq] at sent
  rw [receiveByte_eq, symbol]
  show receiveData d s = _
  rw [receiveData_self d self, selfData_of_frameByte (s := { s with rxEsc := false }) sent,
    selfCompare_mismatch mismatch]

/-- Where a mismatch of the echo leaves the cycle before its TX phase: the collision is flagged and counted once. -/
structure EchoMismatched (s u : State) : Prop where
  collision : u.collision = true
  statColl : u.statColl = incStat s.params s.statColl

/-- The host cannot touch the frame being sent, so the echo is compared with the byte sent (70_reset_and_hazards.md
R306). -/
theorem echoMismatched_of_phases {s s1 s2 : State} {d e : Byte} (busy : s.txState ≠ .idle)
    (hHost : hostPhase s = .next s1) (hRx : rxPhase s1 = .next s2) (self : s.rxMode = .self)
    (arrives : s.inp.rxValid = true) (symbol : decodeSymbol s.params s.inp.rxByte s.rxEsc = (.data d, false))
    (sent : (logicalFrame s.txbuf s.txcrc)[s.rxIdx.toNat]? = some e) (mismatch : d ≠ e) : EchoMismatched s s2 := by
  have keeps := hostPhase_keeps hHost
  obtain ⟨buf, crc, -⟩ := exec_host_busy (decodeHost_format _) busy hHost
  rw [← keeps.ownFields.inp] at arrives symbol
  rw [← keeps.params, ← keeps.rxEsc] at symbol
  rw [← buf, ← crc, ← keeps.rxIdx] at sent
  have received := receiveByte_mismatch (keeps.rxMode.trans self) symbol sent mismatch
  rw [rxPhase, if_pos arrives, received, next_inj] at hRx
  subst hRx
  exact ⟨rfl, by rw [← keeps.params, ← keeps.statColl]; rfl⟩

/-- ECHO_START only starts the wait for the echo (R166). -/
theorem txPhase_echoStart {u v : State} (state : u.txState = .echoStart) (hTx : txPhase u = .next v) :
    v = { u.clearTxWires.requestTimerReset with echoTmo := 0, txState := .echoWait } := by
  rw [txPhase, state] at hTx
  exact (next_inj.mp hTx).symm

/-- A collision that waits for ECHO_WAIT ends the attempt there, whatever else the cycle brings (R167, R182). -/
theorem step_flagged_echoWait {s : State} (inv : Inv s) (noReset : s.inp.rst = false) (state : s.txState = .echoWait)
    (flagged : s.collision = true) :
    ∃ t, step s = .next t ∧ t.txState = .boIdleStart ∧ t.checkSending = false ∧ t.statSent = s.statSent := by
  obtain ⟨t, h⟩ := inv.step_defined
  obtain ⟨u, v, keeps, hTx, rfl⟩ := busy_step_eq_next noReset (by simp [state]) h
  have state' := keeps.txState.trans state
  have tmr := tmrPhase_keeps v
  have ends := txPhase_flagged (keeps.flagged flagged) (by rw [state']; rfl) (by simp [state'])
  obtain rfl := next_inj.mp (ends.symm.trans hTx)
  exact ⟨_, h, tmr.txState, tmr.checkSending, tmr.statSent.trans keeps.statSent⟩

/-- Settles O60: RX flags and counts the mismatch, and the TX phase of the same cycle ends the attempt; only ECHO_START
does not look, and ECHO_WAIT finds the flag in the next cycle. -/
theorem echoMismatchAborts : Obligations.EchoMismatchAborts := by
  intro s d e inv noReset self arrives symbol sent mismatch
  have attempt : s.txState.inAttempt = true := inv.sendingInAttempt.symm.trans (inv.selfMeansSending self)
  have busy : s.txState ≠ .idle := by intro idle; rw [idle] at attempt; cases attempt
  obtain ⟨t, h⟩ := inv.step_defined
  have inv' := stepKeepsTheInvariant s t inv h
  obtain ⟨s1, u, v, hHost, hRx, hTx, rfl⟩ := phases_of_step noReset h
  have keeps := keepsSend_of_phases busy hHost hRx
  have tmr := tmrPhase_keeps v
  obtain ⟨flagged, counted⟩ := echoMismatched_of_phases busy hHost hRx self arrives symbol sent mismatch
  rw [incStat_source inv.sourceLiterals] at counted
  by_cases start : s.txState = .echoStart
  · obtain rfl := txPhase_echoStart (keeps.txState.trans start) hTx
    have flagged' := tmr.collision.trans flagged
    have sentCount := tmr.statSent.trans keeps.statSent
    refine ⟨_, h, flagged', tmr.statColl.trans counted, sentCount, absurd start,
      fun _ => ⟨tmr.txState, fun noReset' => ?_⟩⟩
    obtain ⟨w, next, state, ended, sentCount'⟩ := step_flagged_echoWait inv' noReset' tmr.txState flagged'
    exact ⟨w, next, state, ended, sentCount'.trans sentCount⟩
  · have ends := txPhase_flagged flagged (keeps.txState ▸ attempt) (keeps.txState ▸ start)
    obtain rfl := next_inj.mp (ends.symm.trans hTx)
    exact ⟨_, h, tmr.collision.trans flagged, tmr.statColl.trans counted, tmr.statSent.trans keeps.statSent,
      fun _ => ⟨tmr.txState, tmr.checkSending⟩, fun start' => absurd start' start⟩

end Sys2Proof.Machine
end

section
/-! PROOFS. A send on a quiet line (spec 43_arbiter_send.md R184; 70_reset_and_hazards.md R312): the cycle of the SEND
starts the idle check, which sees no edge and so ends in TX_BEGIN when the octet-time has elapsed; two cycles later the
first wire byte goes out. Each stage is one cycle, and they are put together from the last to the first. -/

namespace Sys2Proof.Machine

/-! ## Runs without a strobe -/

/-- A run of one more cycle from a state begins with its step. -/
theorem run_succ_of_step {M : Host.Core} {s t : M.State} (h : M.step s = .next t) (n : Nat) :
    M.run (n + 1) s = M.run n t := by
  rw [Host.Core.run, h]

/-- After `n` cycles without a strobe comes one that strobes FRAME_SYNC with the driver on. -/
def SyncAfter (n : Nat) (s : State) : Prop :=
  (∀ k : Nat, 1 ≤ k → k ≤ n → ∃ t : State, core.run k s = .next t ∧ t.txStrobe = false) ∧
    ∃ t : State, core.run (n + 1) s = .next t ∧ t.txStrobe = true ∧ t.txByte = 0x7E ∧ t.de = true

/-- One more cycle without a strobe before. -/
theorem SyncAfter.succ {n : Nat} {s t : State} (after : SyncAfter n t) (h : step s = .next t)
    (noStrobe : t.txStrobe = false) : SyncAfter (n + 1) s := by
  obtain ⟨silent, sync⟩ := after
  have run (k : Nat) : core.run (k + 1) s = core.run k t := run_succ_of_step (M := core) h k
  refine ⟨fun k first bound => ?_, by rw [run]; exact sync⟩
  obtain ⟨k, rfl⟩ : ∃ j, k = j + 1 := ⟨k - 1, by omega⟩
  rw [run]
  cases k with
  | zero => exact ⟨t, rfl, noStrobe⟩
  | succ k => exact silent (k + 1) (by omega) (by omega)

/-! ## The inputs -/

/-- The coming `n` inputs are known, with no reset, the line at `line` and the UART ready. -/
structure QuietFeed (line : Bool) (n : Nat) (s : State) : Prop where
  known : n ≤ s.feed.length
  quiet : ∀ i ∈ s.feed, i.rst = false ∧ i.rxLine = line ∧ i.uartReady = true

/-- The next input is one of them. -/
theorem QuietFeed.inp {line : Bool} {n : Nat} {s : State} (h : QuietFeed line (n + 1) s) :
    s.inp.rst = false ∧ s.inp.rxLine = line ∧ s.inp.uartReady = true := by
  obtain ⟨known, quiet⟩ := h
  refine quiet s.inp ?_
  rw [State.inp]
  cases feed : s.feed with
  | nil => rw [feed] at known; cases known
  | cons i is => exact List.mem_cons_self

/-- A cycle uses one of them up. -/
theorem QuietFeed.step {line : Bool} {n : Nat} {s t : State} (h : QuietFeed line (n + 1) s)
    (next : Machine.step s = .next t) : QuietFeed line n t := by
  obtain ⟨known, quiet⟩ := h
  obtain ⟨-, feed, -⟩ := stepKeepsTheParameters s t next
  refine ⟨by rw [feed, List.length_tail]; omega, fun i mem => quiet i (List.mem_of_mem_tail (feed ▸ mem))⟩

/-! ## From the verdict to the first wire byte -/

section Attempt

variable {line : Bool} {s : State} (inv : Inv s)

include inv

/-- The first cycle of TX_SEND strobes FRAME_SYNC: no byte that arrives in LISTEN can flag a collision (R164). -/
theorem syncAfter_txSend (feed : QuietFeed line 1 s) (state : s.txState = .txSend) (start : s.txPos = 0)
    (listen : s.rxMode = .listen) : SyncAfter 0 s := by
  obtain ⟨noReset, -, ready⟩ := feed.inp
  have driving : s.txState.driving = true := by rw [state]; rfl
  obtain ⟨t, h⟩ := inv.step_defined
  obtain ⟨u, v, keeps, hTx, rfl⟩ := busy_step_eq_next noReset (by simp [state]) h
  have tmr := tmrPhase_keeps v
  have quiet : u.clearTxWires.collision = false := (keeps.unflagged listen).trans (inv.drivingNoCollision driving)
  have ready' : u.clearTxWires.inp.uartReady = true := by
    rw [State.clearTxWires_inp, keeps.toKeepsOwnFields.inp]; exact ready
  rw [txPhase, keeps.txState, state] at hTx
  obtain rfl := next_inj.mp ((exec_txsTxSend_sync quiet ready' (keeps.txPos.trans start)).symm.trans hTx)
  refine ⟨fun k first bound => by omega, _, (run_succ_of_step (M := core) h 0).trans rfl, tmr.txStrobe, ?_, ?_⟩
  · refine tmr.txByte.trans ?_
    rw [← inv.sourceLiterals.frameSync, ← keeps.params]
    rfl
  · exact tmr.de.trans (keeps.de.trans (inv.driverOn.trans driving))

/-- TX_BEGIN starts an attempt at position 0 and in LISTEN, and strobes nothing (R163). -/
theorem syncAfter_txBegin (feed : QuietFeed line 2 s) (state : s.txState = .txBegin) : SyncAfter 1 s := by
  obtain ⟨t, h⟩ := inv.step_defined
  have inv' := stepKeepsTheInvariant s t inv h
  have feed' := feed.step h
  obtain ⟨u, v, keeps, hTx, rfl⟩ := busy_step_eq_next feed.inp.1 (by simp [state]) h
  have tmr := tmrPhase_keeps v
  rw [txPhase, keeps.txState, state] at hTx
  obtain rfl : u.clearTxWires.beginAttempt = v := next_inj.mp hTx
  exact (syncAfter_txSend inv' feed' tmr.txState tmr.txPos tmr.rxMode).succ h tmr.txStrobe

/-- The verdict of an idle check that has seen no edge is TX_BEGIN (R162). -/
theorem syncAfter_verdict (feed : QuietFeed line 3 s) (state : s.txState = .senseWait)
    (elapsed : s.tmrCnt = s.params.octetTicks) (noEdge : s.edgeSeen = false) : SyncAfter 2 s := by
  have flag : s.octFlag = true := inv.timerRange.2.trans (decide_eq_true elapsed)
  obtain ⟨t, h⟩ := inv.step_defined
  have inv' := stepKeepsTheInvariant s t inv h
  have feed' := feed.step h
  obtain ⟨u, v, keeps, hTx, rfl⟩ := busy_step_eq_next feed.inp.1 (by simp [state]) h
  have tmr := tmrPhase_keeps v
  have clear : txPhase u = .next (u.clearTxWires.requestEdgeDisarm.goTo .txBegin) := by
    rw [txPhase, keeps.txState, state]
    show finishIdleCheck .senseStart .txBegin u.clearTxWires = _
    simp [finishIdleCheck, keeps.octFlag, keeps.edgeSeen, flag, noEdge]
  obtain rfl := next_inj.mp (clear.symm.trans hTx)
  exact (syncAfter_txBegin inv' feed' tmr.txState).succ h tmr.txStrobe

end Attempt

/-! ## The idle check -/

/-- The idle check of a fresh send, `left` cycles before its verdict, on a line that has stayed at `line`. -/
structure QuietCheck (line : Bool) (left : Nat) (s : State) : Prop where
  inv : Inv s
  feed : QuietFeed line (left + 3) s
  state : s.txState = .senseWait
  count : s.tmrCnt + left = s.params.octetTicks
  sampled : s.linePrev = line
  noEdge : s.edgeSeen = false

/-- A cycle of waiting brings the check one closer to its verdict and strobes nothing (R142, R144, R162). -/
theorem QuietCheck.step {line : Bool} {left : Nat} {s : State} (h : QuietCheck line (left + 1) s) :
    ∃ t, Machine.step s = .next t ∧ t.txStrobe = false ∧ QuietCheck line left t := by
  obtain ⟨inv, feed, state, count, sampled, noEdge⟩ := h
  have checking : s.txState.checkingIdle = true := by rw [state]; rfl
  obtain ⟨noReset, level, -⟩ := feed.inp
  obtain ⟨t, next, state', count'⟩ := step_waits inv noReset checking (by omega)
  obtain ⟨params, -⟩ := stepKeepsTheParameters s t next
  have inv' := stepKeepsTheInvariant s t inv next
  have feed' := feed.step next
  obtain ⟨u, v, keeps, hTx, rfl⟩ := busy_step_eq_next noReset (TxState.ne_idle_of_checkingIdle checking) next
  have low : u.octFlag = false := by
    rw [keeps.octFlag, inv.timerRange.2]; exact decide_eq_false (by omega)
  obtain rfl := next_inj.mp ((txPhase_waits (by rw [keeps.txState]; exact checking) low).symm.trans hTx)
  have watching : Watching line u.clearTxWires :=
    { armed := keeps.edgeArmed.trans (inv.armedWhileChecking.trans checking)
      noArm := rfl
      noDisarm := rfl
      sampled := keeps.linePrev.trans sampled }
  have level' : u.clearTxWires.inp.rxLine = line := by
    rw [State.clearTxWires_inp, keeps.toKeepsOwnFields.inp]; exact level
  obtain ⟨watching', seen⟩ := watching.next_sample
  refine ⟨_, next, (tmrPhase_keeps u.clearTxWires).txStrobe,
    { inv := inv'
      feed := feed'
      state := state'.trans state
      count := by rw [count', params]; omega
      sampled := watching'.sampled.trans level'
      noEdge := seen.trans ?_ }⟩
  rw [level', State.clearTxWires_edgeSeen, keeps.edgeSeen, noEdge]
  simp

/-- The check ends with the verdict that the line was idle, by induction on the cycles left. -/
theorem QuietCheck.syncAfter {line : Bool} {left : Nat} {s : State} (h : QuietCheck line left s) :
    SyncAfter (left + 2) s := by
  induction left generalizing s with
  | zero => exact syncAfter_verdict h.inv h.feed h.state h.count h.noEdge
  | succ left ih =>
    obtain ⟨t, next, noStrobe, check⟩ := h.step
    exact (ih check).succ next noStrobe

/-! ## The cycle of the SEND -/

/-- A command that does not move the sequencer may run or not. -/
theorem runIf_txState {bit : Bool} {command : State → Result} {s t : State}
    (stays : ∀ u, command s = .next u → u.txState = s.txState) (h : runIf bit command s = .next t) :
    t.txState = s.txState := by
  obtain ⟨-, run⟩ | ⟨-, rfl⟩ := runIf_eq_next.mp h
  · exact stays t run
  · rfl

/-- A CTRL write with SEND starts the sequencer in IDLE, whatever else it writes: the two clearing commands before SEND
leave it in IDLE (45_host_interface.md R236 to R239). -/
theorem exec_wrCtrl_send {rxie txie msgDone txdoneClr : Bool} {s t : State} (idle : s.txState = .idle)
    (he : exec (.wrCtrl rxie txie true msgDone txdoneClr) s = .next t) : t.txState = .senseStart := by
  obtain ⟨s1, first, he⟩ := andThen_eq_next.mp he
  obtain ⟨s2, second, he⟩ := andThen_eq_next.mp he
  have idle1 : s1.txState = .idle := (runIf_txState (fun _ run => next_inj.mp run ▸ rfl) first).trans idle
  have idle2 : s2.txState = .idle := (runIf_txState (fun _ run => next_inj.mp run ▸ rfl) second).trans idle1
  obtain ⟨-, send⟩ | ⟨off, -⟩ := runIf_eq_next.mp he
  · rw [execCtrlSend, if_pos idle2, next_inj] at send
    exact send ▸ rfl
  · cases off

/-- The cycle of an accepted SEND runs SENSE_START: the timer is restarted, the monitor has taken its first sample, and
nothing is strobed (R161; 70_reset_and_hazards.md R305). -/
theorem step_send {s t : State} {rxie txie msgDone txdoneClr : Bool} (noReset : s.inp.rst = false)
    (idle : s.txState = .idle) (send : hostRow s = .wrCtrl rxie txie true msgDone txdoneClr)
    (h : step s = .next t) :
    t.txState = .senseWait ∧ t.txStrobe = false ∧ t.tmrCnt = 0 ∧ t.linePrev = s.inp.rxLine ∧ t.edgeSeen = false := by
  obtain ⟨s1, s2, v, hHost, hRx, hTx, rfl⟩ := phases_of_step noReset h
  have started : s1.txState = .senseStart := by
    rw [hostPhase, send] at hHost
    exact exec_wrCtrl_send idle hHost
  have own := (hostPhase_keeps hHost).ownFields.trans (rxPhase_keeps hRx).ownFields
  rw [txPhase, (rxPhase_keeps hRx).txState.trans started] at hTx
  obtain rfl : (s2.clearTxWires.requestTimerReset.requestEdgeArm).goTo .senseWait = v := next_inj.mp hTx
  obtain ⟨watching, noEdge⟩ :=
    tmrPhase_arms (s := (s2.clearTxWires.requestTimerReset.requestEdgeArm).goTo .senseWait) rfl
  refine ⟨(tmrPhase_keeps _).txState, (tmrPhase_keeps _).txStrobe, (tmrPhase_restarts rfl).1, ?_, noEdge⟩
  rw [← own.inp]
  exact watching.sampled

/-- Settles O55: the cycle of the SEND starts a check with OCTET_TICKS cycles left, after which come the verdict,
TX_BEGIN and the first wire byte. -/
theorem quietLineSendStrobesTheSync : Obligations.QuietLineSendStrobesTheSync := by
  intro s line inv idle known ⟨rxie, txie, msgDone, txdoneClr, send⟩ quiet
  have feed : QuietFeed line (s.params.octetTicks + 4) s := ⟨known, quiet⟩
  obtain ⟨noReset, level, -⟩ := feed.inp
  obtain ⟨t, h⟩ := inv.step_defined
  obtain ⟨state, noStrobe, count, sampled, noEdge⟩ := step_send noReset idle send h
  obtain ⟨params, -⟩ := stepKeepsTheParameters s t h
  have check : QuietCheck line s.params.octetTicks t :=
    { inv := stepKeepsTheInvariant s t inv h
      feed := feed.step h
      state := state
      count := by rw [count, params, Nat.zero_add]
      sampled := sampled.trans level
      noEdge := noEdge }
  exact check.syncAfter.succ h noStrobe

end Sys2Proof.Machine
end

section
/-! PROOFS. The rows of the receive path (spec 44_arbiter_receive.md R201 to R210), each on its own: a SYNC, what LISTEN
ignores, and a data byte by the mode and the index of the frame. -/

namespace Sys2Proof.Machine

/-! ## SYNC, FRAME_ESC and LISTEN -/

/-- Settles O25: `syncFrame` is R201, and `rx_esc` takes no part in it. -/
theorem syncStartsAFreshFrame : Obligations.SyncStartsAFreshFrame :=
  fun _ _ => rfl

/-- Settles O26: both data rows run `receiveData`, which ignores the byte in LISTEN. -/
theorem listenIgnoresAndEscapePrefix : Obligations.ListenIgnoresAndEscapePrefix := by
  refine fun s => ⟨fun listen => ⟨congrArg _ (if_pos listen), fun b => ⟨?_, ?_⟩⟩, fun mid => congrArg _ (if_neg mid)⟩
  · exact receiveData_listen (b ^^^ s.params.escMask) listen
  · exact receiveData_listen b listen

/-! ## A data byte -/

/-- The two rows of a data byte do the same once RX_ESCAPED has unmasked it (R204). -/
theorem exec_dataRow {i : Instr} {b d : Byte} {s : State}
    (row : (i = .rxLiteral b ∧ d = b) ∨ (i = .rxEscaped b ∧ d = b ^^^ s.params.escMask)) :
    exec i s = receiveData d s := by
  obtain ⟨rfl, rfl⟩ | ⟨rfl, rfl⟩ := row <;> rfl

/-- Settles O27: `selfCompare` of the byte sent at the index. -/
theorem selfComparesTheEcho : Obligations.SelfComparesTheEcho := by
  intro s b e self sent d i row
  rw [← logicalByte_eq] at sent
  rw [exec_dataRow row, receiveData_self d self, selfData_of_frameByte (s := { s with rxEsc := false }) sent]
  rfl

/-- RXBUF after a payload byte: the byte is stored in STORE only (R208). -/
theorem payloadByte_rxbuf_getElem (s : State) (i : BitVec 4) (d : Byte) (k : Fin 16) :
    (s.payloadByte i d).rxbuf[k] = if s.rxMode = .store ∧ k.val = i.toNat then d else s.rxbuf[k] := by
  have stored : (bufSet s.rxbuf i d)[k] = if i.toNat = k.val then d else s.rxbuf[k] :=
    Vector.getElem_set i.isLt k.isLt
  by_cases store : s.rxMode = .store
  · simp [store, stored, eq_comm]
  · simp [store]

/-- Settles O28: the payload rule at `rx_idx`, whose four low bits are the index in RXBUF. -/
theorem payloadBytesAreStoredAndSummed : Obligations.PayloadBytesAreStoredAndSummed := by
  intro s b mailbox bound d i row expected
  have index : (s.rxIdx.setWidth 4).toNat = s.rxIdx.toNat := by
    rw [BitVec.toNat_setWidth]; omega
  have next : (s.rxIdx.setWidth 4).setWidth 5 + 1 = s.rxIdx + 1 := by bv_omega
  refine ⟨(s.payloadByte (s.rxIdx.setWidth 4) d).rxbuf, ?_, fun k => ?_⟩
  · rw [exec_dataRow row, receiveData_mailbox d mailbox,
      mailboxData_payload (s := { s with rxEsc := false }) bound fun first => expected (BitVec.eq_of_toNat_eq first),
      ← next]
    rfl
  · rw [payloadByte_rxbuf_getElem, index]

/-- Logical byte 0 of a mailbox frame runs the PID row it decodes to (R207). -/
theorem receiveData_first {s : State} (mailbox : s.rxMode = .store ∨ s.rxMode = .drop) (start : s.rxIdx = 0)
    (d : Byte) : receiveData d s = exec (decodePid d) { s with rxEsc := false } := by
  rw [receiveData_mailbox d mailbox, mailboxData_first (by simp [start]), firstByte_eq_exec]

/-- Settles O29: each PID row is the filter on its own class. -/
theorem lengthClassFilter : Obligations.LengthClassFilter := by
  refine ⟨fun s b mailbox start => ⟨receiveData_first mailbox start b, receiveData_first mailbox start _⟩,
    fun s ptype cls i row => ?_⟩
  have filter : exec i s = .next (s.filterFirstByte cls ptype) := by
    obtain ⟨rfl, rfl⟩ | ⟨rfl, rfl⟩ | ⟨rfl, rfl⟩ | ⟨rfl, rfl⟩ := row <;> rfl
  rw [filter]
  refine ⟨fun other => congrArg _ (if_pos other), fun expected => ?_⟩
  refine ⟨(s.payloadByte 0 (cls ++ ptype)).rxbuf, congrArg _ (if_neg (not_not.mpr expected)), fun k => ?_⟩
  rw [payloadByte_rxbuf_getElem]
  exact if_congr (and_congr Iff.rfl Fin.ext_iff.symm) rfl rfl

/-- Settles O30: `crcHighByte` at index 16 and `completeFrame` at index 17. -/
theorem crcBytesAndFrameCompletion : Obligations.CrcBytesAndFrameCompletion := by
  intro s b d i mailbox row
  rw [exec_dataRow row, receiveData_mailbox d mailbox]
  refine ⟨fun high => ?_, fun low => ?_⟩
  · rw [mailboxData_crcHigh (s := { s with rxEsc := false }) high]
    rfl
  · rw [mailboxData_crcLow (s := { s with rxEsc := false }) low]
    rfl

/-- Past the frame a data byte has no rule (R204; log 7). -/
theorem receiveData_pastFrame {s : State} (mid : s.rxMode ≠ .listen) (past : 17 < s.rxIdx.toNat) (d : Byte) :
    receiveData d s = .fault .receiverPastFrame := by
  obtain self | mailbox := RxMode.of_ne_listen mid
  · have noByte : s.frameByte s.rxIdx.toNat = none := by
      rw [State.frameByte, logicalByte_eq, List.getElem?_eq_none (by rw [logicalFrame_length]; omega)]
    rw [receiveData_self d self, selfData_pastFrame (s := { s with rxEsc := false }) noByte]
  · rw [receiveData_mailbox d mailbox, mailboxData_pastFrame (s := { s with rxEsc := false }) past]

/-- Settles O31: neither a sent byte nor a rule of the mailbox frame has such an index, and I9 excludes it. -/
theorem dataPastTheFrameIsStuck : Obligations.DataPastTheFrameIsStuck := by
  intro s b mid past
  refine ⟨receiveData_pastFrame mid past b, receiveData_pastFrame mid past (b ^^^ s.params.escMask), fun inv => ?_⟩
  have bound : s.rxIdx.toNat ≤ 17 := inv.rxIdxBound mid
  omega

end Sys2Proof.Machine
end

section
/-! PROOFS. Whole frames that are not delivered (spec 44_arbiter_receive.md R206, R207, R210 to R212): with a full mailbox
the frame is summed and counted as an overflow; after logical byte 0 of another length class the receive path is in
LISTEN, where a stuffed tail is ignored because it holds no FRAME_SYNC; and the echo of the frame being sent matches byte
by byte. -/

namespace Sys2Proof.Machine

/-! ## The tail of a dropped frame -/

/-- In LISTEN every byte but FRAME_SYNC is ignored (R202). -/
theorem receiveByte_listen {s : State} {b : Byte} (listen : s.rxMode = .listen) (notSync : b ≠ s.params.frameSync) :
    receiveByte b s = .next s := by
  rcases receiveByte_cases b s with ⟨sync, -⟩ | ⟨-, run⟩ | ⟨d, -, run⟩
  · exact absurd sync notSync
  · rw [run, if_pos listen]
  · rw [run, receiveData_listen d listen]

/-- In LISTEN bytes without a FRAME_SYNC among them are ignored (R202). -/
theorem receiveAll_listen {s : State} {bs : List Byte} (listen : s.rxMode = .listen)
    (noSync : s.params.frameSync ∉ bs) : receiveAll bs s = .next s := by
  induction bs with
  | nil => rfl
  | cons b bs ih =>
    rw [List.mem_cons, not_or] at noSync
    obtain ⟨first, rest⟩ := noSync
    rw [receiveAll_cons, receiveByte_listen listen (Ne.symm first), andThen_next, ih rest]

/-- Stuffed bytes hold no FRAME_SYNC (41_frame_codec.md R126). -/
theorem frameSync_notMem_stuffed {p : Params} (lits : p.SourceLiterals) (l : List Byte) :
    p.frameSync ∉ l.flatMap (encodeByte p) := by
  intro mem
  obtain ⟨v, -, stuffed⟩ := List.mem_flatMap.mp mem
  exact frameSync_notMem_encodeByte lits v stuffed

/-- The first logical byte of a frame is the first byte of its payload (30_encoding.md R98). -/
theorem logicalFrame_eq_cons (buf : Buf) (crc : Word) : ∃ rest, logicalFrame buf crc = buf[0] :: rest := by
  have first : (logicalFrame buf crc)[0]? = some buf[0] := (logicalByte_eq buf crc 0).symm
  cases frame : logicalFrame buf crc with
  | nil => simp [frame] at first
  | cons v rest => exact ⟨rest, by simpa [frame] using first⟩

/-- A stuffed mailbox frame of another length class ends at logical byte 0, and its tail is ignored (R202, R207). -/
theorem receiveAll_otherClass {s : State} {p : Buf} (lits : s.params.SourceLiterals)
    (mailbox : s.rxMode = .store ∨ s.rxMode = .drop) (unescaped : s.rxEsc = false) (start : s.rxIdx = 0)
    (other : lenClass p[0] ≠ s.params.lenClassExpected) (crc : Word) :
    receiveAll ((logicalFrame p crc).flatMap (encodeByte s.params)) s = .next { s with rxMode := .listen } := by
  obtain ⟨rest, frame⟩ := logicalFrame_eq_cons p crc
  rw [frame, List.flatMap_cons, receiveAll_append, receiveAll_encodeByte_mailbox lits mailbox unescaped,
    mailboxData_first (by simp [start]), firstByte_other other, andThen_next]
  exact receiveAll_listen (s := { s with rxMode := .listen }) rfl (frameSync_notMem_stuffed lits rest)

/-! ## The echo of the frame being sent -/

/-- A stuffed byte of a SELF frame is compared with the byte sent at its index (R205). -/
theorem receiveAll_encodeByte_self {s : State} {e : Byte} (lits : s.params.SourceLiterals) (self : s.rxMode = .self)
    (unescaped : s.rxEsc = false) (sent : (logicalFrame s.txbuf s.txcrc)[s.rxIdx.toNat]? = some e) (v : Byte) :
    receiveAll (encodeByte s.params v) s = .next (s.selfCompare e v) := by
  rw [← logicalByte_eq] at sent
  rw [receiveAll_encodeByte lits (by simp [self]) unescaped, receiveData_self v self, ← unescaped,
    selfData_of_frameByte sent]

/-- The first `k` logical bytes of the echo, `k` not being all of them, move the index to `k` (R205). -/
theorem receiveAll_echo {s : State} (lits : s.params.SourceLiterals) (self : s.rxMode = .self)
    (unescaped : s.rxEsc = false) (start : s.rxIdx = 0) {k : Nat} (bound : k ≤ 17) :
    receiveAll (((logicalFrame s.txbuf s.txcrc).take k).flatMap (encodeByte s.params)) s =
      .next { s with rxIdx := BitVec.ofNat 5 k } := by
  induction k with
  | zero => rw [show BitVec.ofNat 5 0 = s.rxIdx from start.symm]; rfl
  | succ k ih =>
    have index : (BitVec.ofNat 5 k).toNat = k := by rw [BitVec.toNat_ofNat]; omega
    have next : BitVec.ofNat 5 (k + 1) = BitVec.ofNat 5 k + 1 := BitVec.ofNat_add k 1
    have inside : k < (logicalFrame s.txbuf s.txcrc).length := by rw [logicalFrame_length]; omega
    have compared := receiveAll_encodeByte_self (s := { s with rxIdx := BitVec.ofNat 5 k }) lits self unescaped
      (by rw [index]; exact List.getElem?_eq_getElem inside) (logicalFrame s.txbuf s.txcrc)[k]
    rw [List.take_succ_eq_append_getElem inside, List.flatMap_append, List.flatMap_singleton, receiveAll_append,
      ih (by omega), andThen_next, compared, selfCompare_notLast rfl (by rw [index]; omega),
      next]

/-- The whole echo confirms the frame (R206). -/
theorem receiveAll_wholeEcho {s : State} (lits : s.params.SourceLiterals) (self : s.rxMode = .self)
    (unescaped : s.rxEsc = false) (start : s.rxIdx = 0) :
    receiveAll ((logicalFrame s.txbuf s.txcrc).flatMap (encodeByte s.params)) s =
      .next { s with echoOk := true, rxMode := .listen, rxIdx := 17 } := by
  have inside : 17 < (logicalFrame s.txbuf s.txcrc).length := by rw [logicalFrame_length]; decide
  have whole : logicalFrame s.txbuf s.txcrc =
      (logicalFrame s.txbuf s.txcrc).take 17 ++ [(logicalFrame s.txbuf s.txcrc)[17]] := by
    rw [← List.take_succ_eq_append_getElem inside, List.take_of_length_le (by simp)]
  have compared := receiveAll_encodeByte_self (s := { s with rxIdx := 17 }) lits self unescaped
    (List.getElem?_eq_getElem inside) (logicalFrame s.txbuf s.txcrc)[17]
  rw [whole, List.flatMap_append, List.flatMap_singleton, receiveAll_append,
    receiveAll_echo lits self unescaped start (Nat.le_refl 17), andThen_next]
  exact compared.trans (congrArg _ (selfCompare_last rfl rfl))

/-! ## The statement -/

/-- A wire frame is a SYNC and the stuffed logical bytes (41_frame_codec.md R127, R130). -/
theorem receiveAll_wireFrame_eq (s : State) (buf : Buf) (crc : Word) :
    receiveAll (wireFrame s.params buf crc) s =
      receiveAll ((logicalFrame buf crc).flatMap (encodeByte s.params)) s.syncFrame := by
  rw [wireFrame, receiveAll_cons, receiveByte_sync, andThen_next]

/-- Settles O33, by the mode chosen at the SYNC and, in STORE and DROP, the length class. -/
theorem otherWholeFrameOutcomes : Obligations.OtherWholeFrameOutcomes := by
  intro p s lits listen
  refine ⟨fun noSend full expected => ?_, fun noSend other => ?_, fun send => ?_⟩
  · have drop : s.modeAtSync = .drop := by rw [State.modeAtSync, noSend, full]; rfl
    have overflow := completeFrame_overflow
      (s := (s.syncFrame.receivedTo p 16).crcHighByte (crcHi (computeCrc s.params p))) (crc_of_received s p) drop
    rw [encodeFrame, receiveAll_wireFrame lits noSend (expected.trans lits.lenClassExpected.symm), overflow]
    simp [State.crcHighByte, State.receivedTo, State.syncFrame, drop, listen, toList_take_all, lits.crcInit,
      incStat_source lits]
  · have mailbox : s.modeAtSync = .store ∨ s.modeAtSync = .drop := by
      rw [State.modeAtSync, noSend]
      cases s.frameReady <;> simp
    have dropped := receiveAll_otherClass (s := s.syncFrame) lits mailbox rfl rfl
      (by rw [State.syncFrame_params, lits.lenClassExpected]; exact other) (computeCrc s.params p)
    rw [encodeFrame, receiveAll_wireFrame_eq]
    refine dropped.trans ?_
    simp [State.syncFrame, listen, lits.crcInit]
  · have self : s.modeAtSync = .self := by rw [State.modeAtSync, send]; rfl
    have confirmed := receiveAll_wholeEcho (s := s.syncFrame) lits self rfl rfl
    rw [receiveAll_wireFrame_eq]
    refine confirmed.trans ?_
    simp [State.syncFrame, listen, lits.crcInit]

end Sys2Proof.Machine
end

section
/-! PROOFS. The mailbox belongs to the host (spec 44_arbiter_receive.md R211): outside STORE no received byte touches
RXBUF, FRAME_READY or STAT_RECV, and a frame that is ready keeps the receive path out of STORE. -/

namespace Sys2Proof.Machine

/-- The mailbox is the same in both states: RXBUF, FRAME_READY and the count of delivered frames. -/
structure KeepsMailbox (s t : State) : Prop where
  rxbuf : t.rxbuf = s.rxbuf
  frameReady : t.frameReady = s.frameReady
  statRecv : t.statRecv = s.statRecv

theorem KeepsMailbox.trans {s t u : State} (h : KeepsMailbox s t) (h' : KeepsMailbox t u) : KeepsMailbox s u :=
  ⟨h'.rxbuf.trans h.rxbuf, h'.frameReady.trans h.frameReady, h'.statRecv.trans h.statRecv⟩

theorem TxKeeps.mailbox {s t : State} (h : TxKeeps s t) : KeepsMailbox s t := { h with }
theorem TmrKeeps.mailbox {s t : State} (h : TmrKeeps s t) : KeepsMailbox s t := { h with }

/-- Without MSG_DONE the HOST phase keeps the mailbox (45_host_interface.md R234, R238). -/
theorem hostPhase_keepsMailbox {s t : State}
    (noMsgDone : ∀ rxie txie send txdoneClr : Bool, hostRow s ≠ .wrCtrl rxie txie send true txdoneClr)
    (h : hostPhase s = .next t) : KeepsMailbox s t := by
  have keeps := hostPhase_keeps h
  refine ⟨keeps.rxbuf, ?_, keeps.statRecv⟩
  obtain same | ⟨-, rxie, txie, send, txdoneClr, row⟩ := exec_host_frameReady (decodeHost_format _) h
  · exact same
  · exact absurd row (noMsgDone rxie txie send txdoneClr)

/-- A data byte of a DROP frame keeps the mailbox (44_arbiter_receive.md R208, R210). -/
theorem mailboxData_drop_keepsMailbox {d : Byte} {s t : State} (drop : s.rxMode = .drop)
    (h : mailboxData d s = .next t) : KeepsMailbox s t := by
  have payload (i : BitVec 4) : KeepsMailbox s (s.payloadByte i d) := ⟨by simp [drop], rfl, rfl⟩
  obtain ⟨-, h⟩ | ⟨-, -, rfl⟩ | ⟨-, rfl⟩ | ⟨-, rfl⟩ := mailboxData_eq_next h
  · obtain eq | eq := firstByte_cases d s <;> rw [eq, next_inj] at h <;> subst h
    · exact ⟨rfl, rfl, rfl⟩
    · exact payload 0
  · exact payload _
  · exact ⟨rfl, rfl, rfl⟩
  · obtain eq | ⟨-, eq⟩ | ⟨store, -⟩ := completeFrame_cases s d
    · rw [eq]; exact ⟨rfl, rfl, rfl⟩
    · rw [eq]; exact ⟨rfl, rfl, rfl⟩
    · exact absurd drop store

/-- Outside STORE a received byte keeps the mailbox. -/
theorem receiveByte_keepsMailbox {b : Byte} {s t : State} (notStoring : s.rxMode ≠ .store)
    (h : receiveByte b s = .next t) : KeepsMailbox s t := by
  obtain ⟨-, eq⟩ | ⟨-, eq⟩ | ⟨d, -, eq⟩ := receiveByte_cases b s <;> rw [eq] at h
  · rw [next_inj] at h; subst h
    exact ⟨rfl, rfl, rfl⟩
  · rw [next_inj] at h; subst h
    split <;> exact ⟨rfl, rfl, rfl⟩
  · obtain ⟨-, rfl⟩ | ⟨-, hd⟩ | ⟨mailbox, hd⟩ := receiveData_eq_next h
    · exact ⟨rfl, rfl, rfl⟩
    · obtain ⟨e, -, rfl⟩ := selfData_eq_next hd
      obtain ⟨-, eq⟩ | ⟨-, -, eq⟩ | ⟨-, -, eq⟩ := selfCompare_cases { s with rxEsc := false } e d <;> rw [eq] <;>
        exact ⟨rfl, rfl, rfl⟩
    · have keeps := mailboxData_drop_keepsMailbox (s := { s with rxEsc := false })
        (mailbox.resolve_left notStoring) hd
      exact { keeps with }

/-- Outside STORE the RX phase keeps the mailbox. -/
theorem rxPhase_keepsMailbox {s t : State} (notStoring : s.rxMode ≠ .store) (h : rxPhase s = .next t) :
    KeepsMailbox s t := by
  obtain ⟨-, h⟩ | ⟨-, rfl⟩ := rxPhase_eq_next h
  · exact receiveByte_keepsMailbox notStoring h
  · exact ⟨rfl, rfl, rfl⟩

/-- Settles O58: the HOST phase leaves the frame ready, so by I3 the byte of the RX phase belongs to no STORE frame, and
the other two phases do not write the mailbox. -/
theorem mailboxBelongsToTheHost : Obligations.MailboxBelongsToTheHost := by
  intro s t inv noReset ready noMsgDone h
  obtain ⟨s1, s2, s3, hHost, hRx, hTx, rfl⟩ := phases_of_step noReset h
  have afterHost := hostPhase_keepsMailbox noMsgDone hHost
  have notStoring : s1.rxMode ≠ .store :=
    (hostPhase_beforeTx inv.beforeTx hHost).receiveSide.readyNotStoring (afterHost.frameReady.trans ready)
  have cycle := ((afterHost.trans (rxPhase_keepsMailbox notStoring hRx)).trans (txPhase_keeps hTx).mailbox).trans
    (tmrPhase_keeps s3).mailbox
  exact ⟨cycle.rxbuf, cycle.frameReady.trans ready, cycle.statRecv⟩

end Sys2Proof.Machine
end

section
/-! PROOFS. The host interface (spec 45_host_interface.md R230 to R251, 70_reset_and_hazards.md R307, R308): the word
each read answers, what each write changes, the commands of a CTRL write. Every row that has no effect but on the read
data is one `State.answer`. -/

namespace Sys2Proof.Machine

/-! ## Commands -/

/-- Settles O21: each of the two commands clears its own flag and writes no other field. -/
theorem clearingCommands : Obligations.ClearingCommands :=
  fun _ => ⟨rfl, rfl⟩

/-- The frame a SEND accepts: the bytes below min(TXLEN, P), then zeros (R239). -/
theorem paddedTxbuf_getElem (s : State) (k : Fin 16) :
    s.paddedTxbuf[k] = if k.val < min s.txlen.toNat 16 then s.txbuf[k] else 0 :=
  Vector.getElem_ofFn k.isLt

/-- SEND is accepted in IDLE (R239). -/
theorem exec_ctrlSend_idle {s : State} (idle : s.txState = .idle) : exec .ctrlSend s = .next s.acceptSend :=
  congrArg Host.Outcome.next (if_pos idle)

/-- SEND is ignored while a send is running (R239; 70_reset_and_hazards.md R307). -/
theorem exec_ctrlSend_busy {s : State} (busy : s.txState ≠ .idle) : exec .ctrlSend s = .next s :=
  congrArg Host.Outcome.next (if_neg busy)

/-- Settles O22: in IDLE SEND is `acceptSend`, whose frame is the padded TXBUF. -/
theorem sendAcceptance : Obligations.SendAcceptance :=
  fun s => ⟨exec_ctrlSend_busy, fun idle => ⟨s.paddedTxbuf, paddedTxbuf_getElem s, exec_ctrlSend_idle idle⟩⟩

/-- TXDONE_CLR, run if its bit is set (R236, R237). -/
theorem runIf_txdoneClr (bit : Bool) (s : State) :
    runIf bit execCtrlTxdoneClr s = .next { s with txDone := if bit then false else s.txDone } := by
  cases bit <;> rfl

/-- MSG_DONE, run if its bit is set (R236, R238). -/
theorem runIf_msgDone (bit : Bool) (s : State) :
    runIf bit execCtrlMsgDone s = .next { s with frameReady := if bit then false else s.frameReady } := by
  cases bit <;> rfl

/-- Settles O23: the two clearing commands always go on to SEND, each in the state the one before it left. -/
theorem ctrlWriteLoadsEnablesThenCommands : Obligations.CtrlWriteLoadsEnablesThenCommands := by
  intro rxie txie send msgDone txdoneClr s
  rw [exec, execWrCtrl, runIf_txdoneClr, andThen_next, runIf_msgDone, andThen_next]
  rfl

/-! ## Reads -/

/-- Settles O14: every read row is `State.answer` of its register. -/
theorem registerReads : Obligations.RegisterReads :=
  fun _ =>
    ⟨fun _ => rfl, fun _ => rfl, -- the two buffers
      rfl, rfl, rfl, -- CTRL, TXLEN, TXCRC
      rfl, rfl, rfl, rfl, -- the counters
      fun _ => rfl, fun _ => rfl⟩ -- the reserved addresses

/-- A slice of a word is the field whose bits stand there. -/
theorem extractLsb'_eq_of_bits {w : Word} {start len : Nat} {field : BitVec len}
    (bits : ∀ i < len, w.getLsbD (start + i) = field.getLsbD i) : w.extractLsb' start len = field := by
  refine BitVec.eq_of_getLsbD_eq fun i hi => ?_
  rw [BitVec.getLsbD_extractLsb', decide_eq_true hi, Bool.true_and, bits i hi]

/-- STATUS.BO is the register `bo` (30_encoding.md R95). -/
theorem statusWord_bo (s : State) : s.statusWord.extractLsb' 4 4 = s.bo := by
  refine extractLsb'_eq_of_bits fun i hi => ?_
  rw [statusWord_bit]
  iterate 4 rw [if_neg (by omega)]
  rw [if_pos (by omega), Nat.add_sub_cancel_left]

/-- STATUS.TX_STATE is the code of `tx_state` (30_encoding.md R95). -/
theorem statusWord_txState (s : State) : s.statusWord.extractLsb' 8 4 = s.txState.code := by
  refine extractLsb'_eq_of_bits fun i hi => ?_
  rw [statusWord_bit]
  iterate 5 rw [if_neg (by omega)]
  rw [if_pos (by omega), Nat.add_sub_cancel_left]

/-- STATUS.RX_MODE is the code of `rx_mode` (30_encoding.md R95). -/
theorem statusWord_rxMode (s : State) : s.statusWord.extractLsb' 12 2 = s.rxMode.code := by
  refine extractLsb'_eq_of_bits fun i hi => ?_
  rw [statusWord_bit]
  iterate 6 rw [if_neg (by omega)]
  rw [if_pos (by omega), Nat.add_sub_cancel_left]

/-- Settles O15: the word is STATUS; its flags are single bits of it and its other fields are slices. -/
theorem statusReadShowsEveryField : Obligations.StatusReadShowsEveryField := by
  intro s
  refine ⟨s.statusWord, rfl, ?txBusy, ?frameReady, ?txDone, ?checkSending, statusWord_bo s, ?txState, ?rxMode, ?de,
    ?reserved⟩
  case txState =>
    rw [statusWord_txState]
    exact txRow_decodes s.txState
  case rxMode =>
    rw [statusWord_rxMode]
    cases s.rxMode <;> rfl
  all_goals
    rw [statusWord_bit]
    simp [State.txBusy]

/-! ## Writes -/

/-- Settles O17: every one of these rows is `State.answer` of 0. -/
theorem writesWithoutEffect : Obligations.WritesWithoutEffect :=
  fun _ =>
    ⟨fun _ => rfl, rfl, rfl, fun _ => rfl, -- RXBUF, STATUS, TXCRC, the counters
      fun _ => rfl, fun _ => rfl, -- the reserved addresses
      rfl⟩ -- no access

/-- Settles O20: the write does not ask for the control state, and the read answers the register it wrote. -/
theorem txlenWriteThenRead : Obligations.TxlenWriteThenRead := by
  intro len s
  obtain ⟨-, -, -, readTxlen, -⟩ := registerReads { s with hostRdata := 0, txlen := len }
  exact ⟨rfl, readTxlen⟩

/-- A buffer with one byte replaced holds that byte at its index and the old ones elsewhere. -/
theorem bufSet_getElem (buf : Buf) (idx : BitVec 4) (d : Byte) (k : Fin 16) :
    (bufSet buf idx d)[k] = if k = idx.toFin then d else buf[k] := by
  have stored : (bufSet buf idx d)[k] = if idx.toNat = k.val then d else buf[k] := Vector.getElem_set idx.isLt k.isLt
  have same : idx.toNat = k.val ↔ k = idx.toFin := eq_comm.trans Fin.ext_iff.symm
  exact stored.trans (if_congr same rfl rfl)

/-- Settles O19: outside IDLE the row is the one without effect. -/
theorem txbufWriteOnlyInIdle : Obligations.TxbufWriteOnlyInIdle :=
  fun idx data s =>
    ⟨fun busy => congrArg Host.Outcome.next (if_neg busy), fun idle =>
      ⟨bufSet s.txbuf idx data, congrArg Host.Outcome.next (if_pos idle), bufSet_getElem s.txbuf idx data⟩⟩

end Sys2Proof.Machine
end

section
/-! PROOFS. Exceptions, event accounting and the interrupt request (spec 60_exceptions.md R270 to R274): no phase
refuses, a cycle counts each event once, and `irq` follows the pending bits and their enables. -/

namespace Sys2Proof.Machine

/-! ## No refusal -/

/-- A result that is no refusal. -/
def NeverRefused (r : Result) : Prop := ∀ e : Refusal, r ≠ .refused e

theorem neverRefused_next (t : State) : NeverRefused (.next t) := nofun

theorem neverRefused_fault (e : Fault) : NeverRefused (.fault e) := nofun

theorem neverRefused_of_defined {r : Result} (h : ∃ t, r = .next t) : NeverRefused r := by
  obtain ⟨t, rfl⟩ := h
  exact neverRefused_next t

/-- A sequence refuses only where one of its parts does. -/
theorem NeverRefused.andThen {r : Result} {f : State → Result} (first : NeverRefused r)
    (second : ∀ s, NeverRefused (f s)) : NeverRefused (andThen r f) := by
  intro e refused
  obtain refused | ⟨s, -, refused⟩ := andThen_eq_refused.mp refused
  · exact first e refused
  · exact second s e refused

/-- A data byte is processed, ignored, or past the frame a fault (44_arbiter_receive.md R202, R204; log 7). -/
theorem receiveData_neverRefused (d : Byte) (s : State) : NeverRefused (receiveData d s) := by
  by_cases listen : s.rxMode = .listen
  · rw [receiveData_listen d listen]
    exact neverRefused_next s
  · by_cases past : 17 < s.rxIdx.toNat
    · rw [receiveData_pastFrame listen past]
      exact neverRefused_fault _
    · have inside : s.rxIdx.toNat ≤ 17 := Nat.not_lt.mp past
      obtain self | mailbox := RxMode.of_ne_listen listen
      · obtain ⟨e, sent⟩ := logicalByte_isSome (buf := s.txbuf) (crc := s.txcrc) inside
        rw [receiveData_self d self, selfData_of_frameByte (s := { s with rxEsc := false }) sent]
        exact neverRefused_next _
      · rw [receiveData_mailbox d mailbox]
        exact neverRefused_of_defined (mailboxData_defined inside)

theorem receiveByte_neverRefused (b : Byte) (s : State) : NeverRefused (receiveByte b s) := by
  obtain ⟨-, eq⟩ | ⟨-, eq⟩ | ⟨d, -, eq⟩ := receiveByte_cases b s <;> rw [eq]
  · exact neverRefused_next _
  · exact neverRefused_next _
  · exact receiveData_neverRefused d s

theorem rxPhase_neverRefused (s : State) : NeverRefused (rxPhase s) := by
  unfold rxPhase
  split
  · exact receiveByte_neverRefused _ s
  · exact neverRefused_next s

/-- The one TXSTATE row that can stop is TX_SEND past the frame, with a fault (43_arbiter_send.md R164; log 8). -/
theorem exec_txRow_neverRefused (s : State) : NeverRefused (exec (txRow s.txState) s) := by
  by_cases past : s.txState = .txSend ∧ 18 < s.txPos.toNat
  · obtain ⟨state, past⟩ := past
    rw [state]
    show NeverRefused (exec .txsTxSend s)
    cases flagged : s.collision with
    | true => exact exec_flagged flagged (.inl rfl) ▸ neverRefused_next _
    | false =>
      cases ready : s.inp.uartReady with
      | true => exact (byteBeyondTheFrameIsStuck s state flagged ready past).1 ▸ neverRefused_fault _
      | false => exact (sendHandsOverOneByte s flagged).1 ready ▸ neverRefused_next s
  · exact neverRefused_of_defined (exec_txRow_defined fun state => Nat.not_lt.mp fun far => past ⟨state, far⟩)

/-- No cycle refuses, from any state: none of its phases does (R270). -/
theorem cycle_neverRefused (s : State) : NeverRefused (cycle s) :=
  have host : NeverRefused (hostPhase s) := neverRefused_of_defined (exec_host_defined (decodeHost_format _) s)
  host.andThen fun s1 => (rxPhase_neverRefused s1).andThen fun s2 =>
    (exec_txRow_neverRefused s2.clearTxWires).andThen fun _ => neverRefused_next _

/-- Settles O11: the invariant keeps each phase of a cycle away from its fault, and a fault is the only other way to
stop. -/
theorem stepNeverStops : Obligations.StepNeverStops := by
  refine ⟨fun s inv => inv.step_defined, fun s => ?_⟩
  show NeverRefused (step s)
  unfold step
  split
  · exact neverRefused_next _
  · exact cycle_neverRefused s

/-! ## Counting in the RX phase -/

/-- The statistics counters of the receive path (10_state.md R30). -/
structure ReceiveCounters where
  recv : Word
  coll : Word
  ovf : Word

/-- The receive path's counters in a state; STAT_SENT is the sequencer's alone (10_state.md R44). -/
def State.receiveCounters (s : State) : ReceiveCounters := ⟨s.statRecv, s.statColl, s.statOvf⟩

/-- The counters together are the three registers, each with its value. -/
theorem receiveCounters_eq_iff {s : State} {recv coll ovf : Word} :
    s.receiveCounters = ⟨recv, coll, ovf⟩ ↔ s.statRecv = recv ∧ s.statColl = coll ∧ s.statOvf = ovf := by
  rw [State.receiveCounters, ReceiveCounters.mk.injEq]

/-- The counting branches of the RX phase: it takes at most one (R272). -/
inductive RxCount (s t : State) : Prop
  | nothing (same : t.receiveCounters = s.receiveCounters)
  /-- EV1, EV2: counted and flagged (44_arbiter_receive.md R201, R205). -/
  | collision (flagged : t.collision = true)
      (counted : t.receiveCounters = { s.receiveCounters with coll := incStat s.params s.statColl })
  /-- EV4: counted and not flagged, but only in a mailbox frame (44_arbiter_receive.md R210). -/
  | corruption (mailbox : s.rxMode = .store ∨ s.rxMode = .drop)
      (counted : t.receiveCounters = { s.receiveCounters with coll := incStat s.params s.statColl })
  /-- 44_arbiter_receive.md R210. -/
  | overflow (counted : t.receiveCounters = { s.receiveCounters with ovf := incStat s.params s.statOvf })
  /-- 44_arbiter_receive.md R210. -/
  | delivery (counted : t.receiveCounters = { s.receiveCounters with recv := incStat s.params s.statRecv })

/-- A SYNC counts exactly when it is mid-frame (44_arbiter_receive.md R201). -/
theorem syncFrame_count (s : State) : RxCount s s.syncFrame := by
  by_cases listen : s.rxMode = .listen
  · exact .nothing (by simp [State.receiveCounters, listen])
  · exact .collision (by simp [listen]) (by simp [State.receiveCounters, listen])

/-- A data byte of a SELF frame counts exactly when it is a mismatch (44_arbiter_receive.md R205, R206). -/
theorem selfData_count {d : Byte} {s t : State} (h : selfData d s = .next t) : RxCount s t := by
  obtain ⟨e, -, rfl⟩ := selfData_eq_next h
  obtain ⟨-, eq⟩ | ⟨-, -, eq⟩ | ⟨-, -, eq⟩ := selfCompare_cases s e d <;> rw [eq]
  · exact .collision rfl rfl
  · exact .nothing rfl
  · exact .nothing rfl

/-- A data byte of a mailbox frame counts exactly when it completes the frame (44_arbiter_receive.md R207 to R210). -/
theorem mailboxData_count {d : Byte} {s t : State} (mailbox : s.rxMode = .store ∨ s.rxMode = .drop)
    (h : mailboxData d s = .next t) : RxCount s t := by
  obtain ⟨-, h⟩ | ⟨-, -, rfl⟩ | ⟨-, rfl⟩ | ⟨-, rfl⟩ := mailboxData_eq_next h
  · obtain eq | eq := firstByte_cases d s <;> rw [eq, next_inj] at h <;> subst h <;> exact .nothing rfl
  · exact .nothing rfl
  · exact .nothing rfl
  · obtain eq | ⟨-, eq⟩ | ⟨-, eq⟩ := completeFrame_cases s d <;> rw [eq]
    · exact .corruption mailbox rfl
    · exact .overflow rfl
    · exact .delivery rfl

/-- `rx_esc` is no part of a count. -/
theorem RxCount.of_rxEsc {s t : State} {esc : Bool} (h : RxCount { s with rxEsc := esc } t) : RxCount s t := by
  cases h with
  | nothing same => exact .nothing same
  | collision flagged counted => exact .collision flagged counted
  | corruption mailbox counted => exact .corruption mailbox counted
  | overflow counted => exact .overflow counted
  | delivery counted => exact .delivery counted

/-- The RX phase handles at most one byte and takes at most one counting branch (R272). -/
theorem rxPhase_count {s t : State} (h : rxPhase s = .next t) : RxCount s t := by
  obtain ⟨-, hb⟩ | ⟨-, rfl⟩ := rxPhase_eq_next h
  · obtain ⟨-, eq⟩ | ⟨-, eq⟩ | ⟨d, -, eq⟩ := receiveByte_cases s.inp.rxByte s <;> rw [eq] at hb
    · exact next_inj.mp hb ▸ syncFrame_count s
    · rw [next_inj] at hb; subst hb
      split <;> exact .nothing rfl
    · obtain ⟨-, rfl⟩ | ⟨-, hd⟩ | ⟨mailbox, hd⟩ := receiveData_eq_next hb
      · exact .nothing rfl
      · exact (selfData_count hd).of_rxEsc
      · exact (mailboxData_count (s := { s with rxEsc := false }) mailbox hd).of_rxEsc
  · exact .nothing rfl

/-- A counter after a cycle, or after a part of one: as it was, or one more modulo 2^16 (10_state.md R30). -/
def AtMostOneMore (old new : Word) : Prop := new = old ∨ new = old + 1

/-- None of the branches moves a counter by more than 1. -/
theorem RxCount.atMostOneMore {s t : State} (lits : s.params.SourceLiterals) (h : RxCount s t) :
    AtMostOneMore s.statRecv t.statRecv ∧ AtMostOneMore s.statColl t.statColl ∧
      AtMostOneMore s.statOvf t.statOvf := by
  have inc := incStat_source lits
  cases h with
  | nothing same =>
    obtain ⟨recv, coll, ovf⟩ := receiveCounters_eq_iff.mp same
    exact ⟨.inl recv, .inl coll, .inl ovf⟩
  | collision _ counted | corruption _ counted =>
    obtain ⟨recv, coll, ovf⟩ := receiveCounters_eq_iff.mp counted
    exact ⟨.inl recv, .inr (coll.trans (inc _)), .inl ovf⟩
  | overflow counted =>
    obtain ⟨recv, coll, ovf⟩ := receiveCounters_eq_iff.mp counted
    exact ⟨.inl recv, .inl coll, .inr (ovf.trans (inc _))⟩
  | delivery counted =>
    obtain ⟨recv, coll, ovf⟩ := receiveCounters_eq_iff.mp counted
    exact ⟨.inr (recv.trans (inc _)), .inl coll, .inl ovf⟩

/-- What RX counts in STAT_COLL during an attempt it also flags: a mailbox frame is not received then (R272). -/
theorem RxCount.statColl_of_unflagged {s t : State} (h : RxCount s t) (side : ReceiveSide s)
    (sending : s.checkSending = true) (unflagged : t.collision = false) : t.statColl = s.statColl := by
  cases h with
  | nothing same => exact congrArg ReceiveCounters.coll same
  | collision flagged => rw [flagged] at unflagged; cases unflagged
  | corruption mailbox =>
    obtain mode | mode := side.sendingNotMailbox sending <;> simp [mode] at mailbox
  | overflow counted => exact congrArg ReceiveCounters.coll counted
  | delivery counted => exact congrArg ReceiveCounters.coll counted

/-! ## Counting in the TX phase -/

/-- Only Succeed counts in STAT_SENT (43_arbiter_send.md R175). -/
theorem txPhase_statSent {s t : State} (h : txPhase s = .next t) :
    t.statSent = s.statSent ∨ t.statSent = incStat s.params s.statSent := by
  cases txPhase_move h with
  | succeed => exact .inr rfl
  | _ => exact .inl rfl

/-- Only the echo timeout counts in STAT_COLL, in ECHO_WAIT and with no collision flagged (43_arbiter_send.md R167,
R174; R272). -/
theorem txPhase_statColl {s t : State} (h : txPhase s = .next t) :
    t.statColl = s.statColl ∨
      s.txState = .echoWait ∧ s.collision = false ∧ t.statColl = incStat s.params s.statColl := by
  by_cases flagged : s.txState = .echoWait ∧ s.collision = true
  · have collides := txPhase_flagged flagged.2 (by rw [flagged.1]; rfl) (by simp [flagged.1])
    exact .inl (next_inj.mp (collides.symm.trans h) ▸ rfl)
  · cases txPhase_move h with
    | echoTimeout state => exact .inr ⟨state, Bool.eq_false_iff.mpr fun collision => flagged ⟨state, collision⟩, rfl⟩
    | _ => exact .inl rfl

/-! ## Counting in a cycle -/

/-- The RX and TX phases of a cycle do not both count in STAT_COLL: a timeout is counted only in an attempt in which RX
has flagged nothing (R272). -/
theorem statColl_atMostOneMore {s t u : State} (h : BeforeTx s) (hRx : rxPhase s = .next t)
    (hTx : txPhase t = .next u) : AtMostOneMore s.statColl u.statColl := by
  have count := rxPhase_count hRx
  have keeps := rxPhase_keeps hRx
  obtain same | ⟨state, unflagged, counted⟩ := txPhase_statColl hTx
  · rw [same]
    exact (count.atMostOneMore h.sourceLiterals).2.1
  · have sending : s.checkSending = true := by
      rw [h.sendSide.sendingInAttempt, ← keeps.txState, state]; rfl
    rw [counted, count.statColl_of_unflagged h.receiveSide sending unflagged, keeps.params,
      incStat_source h.sourceLiterals]
    exact .inr rfl

/-- Settles O59: HOST and TMR count nothing, RX and TX share only STAT_COLL, and they never both count in it. -/
theorem countersStepByAtMostOne : Obligations.CountersStepByAtMostOne := by
  intro s t inv noReset h
  obtain ⟨s1, s2, s3, hHost, hRx, hTx, rfl⟩ := phases_of_step noReset h
  have host := hostPhase_keeps hHost
  have rx := rxPhase_keeps hRx
  have tx := txPhase_keeps hTx
  have tmr := tmrPhase_keeps s3
  have afterHost := hostPhase_beforeTx inv.beforeTx hHost
  obtain ⟨recv, -, ovf⟩ := (rxPhase_count hRx).atMostOneMore afterHost.sourceLiterals
  have coll := statColl_atMostOneMore afterHost hRx hTx
  have sent := txPhase_statSent hTx
  rw [rx.params, incStat_source afterHost.sourceLiterals, rx.statSent, host.statSent, ← tmr.statSent] at sent
  rw [← tx.statRecv, ← tmr.statRecv, host.statRecv] at recv
  rw [← tmr.statColl, host.statColl] at coll
  rw [← tx.statOvf, ← tmr.statOvf, host.statOvf] at ovf
  exact ⟨sent, recv, coll, ovf⟩

/-! ## The interrupt request -/

/-- Settles O24: `irq` reads four registers, all 0 after reset; a CTRL write without commands loads two of them, the
enables. -/
theorem irqIsPendingAndEnabled : Obligations.IrqIsPendingAndEnabled :=
  ⟨rfl, fun _ => rfl, fun s rxie txie =>
    ⟨_, ctrlWriteLoadsEnablesThenCommands rxie txie false false false s, rfl, rfl, rfl⟩⟩

end Sys2Proof.Machine
end

section
/-! PROOFS. Reset and hazards (spec 70_reset_and_hazards.md R300, R301, R305, R306): what a reset leaves in every state
element, when an accepted SEND shows, and that the frame being sent belongs to the sequencer. -/

namespace Sys2Proof.Machine

/-! ## An accepted SEND shows in the next cycle -/

/-- STATUS.TX_BUSY (30_encoding.md R95). -/
theorem statusWord_txBusy (s : State) : s.statusWord.getLsbD 0 = s.txBusy := by
  rw [statusWord_bit, if_pos (by omega)]
  simp

/-- STATUS.TX_DONE (30_encoding.md R95). -/
theorem statusWord_txDone (s : State) : s.statusWord.getLsbD 2 = s.txDone := by
  rw [statusWord_bit, if_neg (by omega), if_neg (by omega), if_pos (by omega)]
  simp

/-- A send just accepted, before its first TX phase: SENSE_START is to run, nothing is left of an earlier send
(45_host_interface.md R239). -/
structure SendAccepted (s : State) : Prop where
  txState : s.txState = .senseStart
  bo : s.bo = 0
  txDone : s.txDone = false

/-- The HOST phase accepts a SEND in IDLE, whatever else the CTRL write does (R236, R239). -/
theorem hostPhase_sendAccepted {s t : State} {rxie txie msgDone txdoneClr : Bool} (idle : s.txState = .idle)
    (send : hostRow s = .wrCtrl rxie txie true msgDone txdoneClr) (h : hostPhase s = .next t) : SendAccepted t := by
  rw [hostPhase, send] at h
  have started : t.txState = .senseStart := exec_wrCtrl_send idle h
  obtain ⟨stays, -⟩ | ⟨-, bo, txDone, -⟩ := exec_host_idle rfl idle h
  · rw [started] at stays; cases stays
  · exact ⟨started, bo, txDone⟩

/-- A byte received in the cycle of the SEND does not touch the sequencer (44_arbiter_receive.md R200). -/
theorem SendAccepted.afterRx {s t : State} (accepted : SendAccepted s) (h : rxPhase s = .next t) : SendAccepted t :=
  have keeps := rxPhase_keeps h
  ⟨keeps.txState.trans accepted.txState, keeps.bo.trans accepted.bo, keeps.txDone.trans accepted.txDone⟩

/-- What SENSE_START leaves of an accepted SEND: the wait of the idle check, and its two requests to the TMR phase
(43_arbiter_send.md R161). -/
structure SensingStarted (s : State) : Prop where
  txState : s.txState = .senseWait
  bo : s.bo = 0
  txDone : s.txDone = false
  timerReset : s.reqTimerReset = true
  edgeArm : s.reqEdgeArm = true

/-- The TX phase of an accepted SEND runs SENSE_START (43_arbiter_send.md R178). -/
theorem SendAccepted.sensingStarted {s t : State} (accepted : SendAccepted s) (h : txPhase s = .next t) :
    SensingStarted t := by
  rw [txPhase, accepted.txState] at h
  obtain rfl : (s.clearTxWires.requestTimerReset.requestEdgeArm).goTo .senseWait = t := next_inj.mp h
  constructor <;> simp [accepted.bo, accepted.txDone]

/-- Settles O54: the cycle goes through SENSE_START, whose two requests the TMR phase serves, and `bo`, TX_DONE and
`tx_state` stay as SEND and SENSE_START wrote them. -/
theorem sendIsVisibleInTheNextCycle : Obligations.SendIsVisibleInTheNextCycle := by
  intro s t noReset idle ⟨rxie, txie, msgDone, txdoneClr, send⟩ h
  obtain ⟨s1, s2, s3, hHost, hRx, hTx, rfl⟩ := phases_of_step noReset h
  have started : SensingStarted s3 := ((hostPhase_sendAccepted idle send hHost).afterRx hRx).sensingStarted hTx
  have tmr := tmrPhase_keeps s3
  have sensing : (tmrPhase s3).advance.txState = .senseWait := tmr.txState.trans started.txState
  have noDone : (tmrPhase s3).advance.txDone = false := tmr.txDone.trans started.txDone
  obtain ⟨watching, -⟩ := tmrPhase_arms started.edgeArm
  obtain ⟨restarted, -⟩ := tmrPhase_restarts started.timerReset
  refine ⟨sensing, tmr.bo.trans started.bo, watching.armed, restarted, ?busy, ?done⟩
  case busy =>
    rw [statusWord_txBusy, State.txBusy, sensing]
    rfl
  case done => rw [statusWord_txDone, noDone]

/-! ## The outbound frame is stable -/

/-- The outbound frame is the same in both states: its bytes and its cached CRC. -/
structure KeepsOutbound (s t : State) : Prop where
  txbuf : t.txbuf = s.txbuf
  txcrc : t.txcrc = s.txcrc

theorem KeepsOutbound.trans {s t u : State} (h : KeepsOutbound s t) (h' : KeepsOutbound t u) : KeepsOutbound s u :=
  ⟨h'.txbuf.trans h.txbuf, h'.txcrc.trans h.txcrc⟩

theorem RxKeeps.outbound {s t : State} (h : RxKeeps s t) : KeepsOutbound s t := { h with }
theorem TxKeeps.outbound {s t : State} (h : TxKeeps s t) : KeepsOutbound s t := { h with }
theorem TmrKeeps.outbound {s t : State} (h : TmrKeeps s t) : KeepsOutbound s t := { h with }

/-- While a send is running the host cannot write the frame: a TXBUF write and a SEND are ignored
(45_host_interface.md R232, R239). -/
theorem hostPhase_keepsOutbound {s t : State} (busy : s.txState ≠ .idle) (h : hostPhase s = .next t) :
    KeepsOutbound s t :=
  have ⟨txbuf, txcrc, _⟩ := exec_host_busy (decodeHost_format _) busy h
  ⟨txbuf, txcrc⟩

/-- Settles O56: only HOST rows write the outbound frame, and none does while a send is running. -/
theorem outboundFrameIsStable : Obligations.OutboundFrameIsStable := by
  intro s t noReset busy h
  obtain ⟨s1, s2, s3, hHost, hRx, hTx, rfl⟩ := phases_of_step noReset h
  have upToTx := ((hostPhase_keepsOutbound busy hHost).trans (rxPhase_keeps hRx).outbound).trans
    (txPhase_keeps hTx).outbound
  have cycle := upToTx.trans (tmrPhase_keeps s3).outbound
  exact ⟨cycle.txbuf, cycle.txcrc⟩

/-! ## Reset -/

/-- A cycle with `rst` = 1 runs no phase (R300). -/
theorem step_of_reset {s : State} (reset : s.inp.rst = true) : step s = .next (resetCycle s) :=
  step_eq_next.mpr (.inl ⟨reset, rfl⟩)

/-- A reset cycle leaves the reset state but for the model's own fields, which `advance` moves on as in every other
cycle (R300; log 19). -/
theorem resetCycle_eq (s : State) :
    resetCycle s =
      { State.reset with
        rxCrc := s.params.crcInit, params := s.params, feed := s.advance.feed, draws := s.advance.draws } := by
  rw [resetCycle, resetWith_eq]
  rfl

/-- Settles O7: the reset cycle's state is the reset state, in which every output is 0. -/
theorem resetCycleGivesTheResetState : Obligations.ResetCycleGivesTheResetState := by
  intro s reset
  refine ⟨resetCycle s, step_of_reset reset, ?_⟩
  rw [resetCycle_eq]
  exact ⟨rfl, rfl, rfl, rfl, rfl, rfl⟩

/-- Both buffers are cleared by a reset (R301). -/
theorem reset_buffers (k : Fin 16) : State.reset.txbuf[k] = 0 ∧ State.reset.rxbuf[k] = 0 :=
  ⟨Vector.getElem_replicate k.isLt, Vector.getElem_replicate k.isLt⟩

/-- What the host reads after a reset, and that nothing interrupts it (R301). -/
theorem reset_reads :
    State.reset.statusWord = 0 ∧ State.reset.ctrlWord = 0 ∧ State.reset.registerWord 0x21 = 0x0010 ∧
      State.reset.irq = false :=
  ⟨rfl, rfl, rfl, rfl⟩

/-- Settles O8: the registers are R301's table by definition, and the invariants are those of the whole `Inv` at
reset. -/
theorem resetValues : Obligations.ResetValues := by
  obtain ⟨status, ctrl, txlen, irq⟩ := reset_reads
  exact
    ⟨reset_buffers, rfl, rfl, rfl, rfl, rfl, rfl, -- TXCRC, TXLEN, the flags and the enables
      rfl, rfl, rfl, rfl, -- the counters
      rfl, rfl, rfl, rfl, rfl, rfl, rfl, rfl, rfl, rfl, -- the sequencer
      rfl, rfl, rfl, rfl, rfl, -- the receive path
      rfl, rfl, rfl, rfl, rfl, -- the timing monitor
      status, ctrl, txlen, irq, resetMeetsTheInvariant.toSpecInv⟩

end Sys2Proof.Machine
end
